-- ==== Sys2Proof/Word.lean ====
section
/-! DEFINITION. The plain word types of the block: bytes, 16-bit values, sequence numbers, transport codes. -/

namespace Sys2Proof

/-- One byte of a packet (R15, R36). -/
abbrev Byte := BitVec 8

/-- A 16-bit value: a header word, a checksum, a sample, a table entry (R4, R54). -/
abbrev Half := BitVec 16

/-- A 12-bit sequence number (R12, R58). -/
abbrev SeqNum := BitVec 12

/-- The code a failed transfer returns (R6, R72; D11), as it stands in the 16 bits of `ERRINFO.EXPECTED`: its low
`Config.tcodeBits` bits are the code, and the bits above are no part of it (log entry 23). -/
abbrev TransportCode := BitVec 16

end Sys2Proof
end

