-- ==== Sys2Proof/Config.lean ====
section
/-! DEFINITION. What an implementation of the block fixes (R2, R3, R5, R6), and the free values the spec leaves open. -/

namespace Sys2Proof

/-- The parameters a model takes as configuration, with the reference deployment's values as defaults
(R2, R5, R6 and the summary table of `00_scope.md` section 5). The fixed parameters (16-bit samples, 12-bit
sequence numbers, polynomial 0x8408, initial value 0) are not here: they cannot vary. -/
structure Config where
  /-- `ROWS`: frame rows (R2). -/
  rows : Nat := 60
  /-- `COLS`: samples per row and per packet (R2). -/
  cols : Nat := 80
  /-- `PKT_LEN`: bytes per packet; follows `COLS` by R3. -/
  pktLen : Nat := 164
  /-- `N_ITER`: outer iterations of one capture; may differ from `ROWS` (R2, R3, D25). -/
  nIter : Nat := 60
  /-- `DISCARD_MASK` over the header word (R5, D2). -/
  discardMask : Half := 0x000F#16
  /-- `FLAG_MASK` over the header word (R5, D2). -/
  flagMask : Half := 0x000F#16
  /-- `SEQ_MASK` over the header word (R5, D2). -/
  seqMask : Half := 0xFFF0#16
  /-- `SEQ_SHIFT`, the right shift of the masked header word (R5, D2). -/
  seqShift : Nat := 4
  /-- `CSUM_BIG_ENDIAN`: byte 2 is the high byte of the transmitted checksum (R6, R44, D3). -/
  csumBigEndian : Bool := true
  /-- `TX_FILL`: the byte driven on the transmit side of a transfer; OPEN, so no default, and observed by no rule
  (R6, R87, D15). -/
  txFill : Byte
  /-- The type `TransportCode`: how many bits the code of a failed transfer has, 8 by default (R6, R72, D11, U13). At most 16,
  the width of `ERRINFO.EXPECTED`, where a code is stored unchanged (log entry 23). -/
  tcodeBits : Fin 17 := 8
  /-- `T_STAB` in milliseconds: the host's wait between SELECT and START; no rule reads it (R6, R160, D17). -/
  tStab : Nat := 185
  /-- Whether this instance is the checksum engine used alone, with its inputs `eop`, byte and initial value
  brought out (R73, R84, D16), rather than the whole block, where no port reaches `CRC` (R33). Log entry 8. -/
  engineAlone : Bool := false
  deriving DecidableEq, Repr

/-- `HDR_LEN` (R2). -/
abbrev Config.hdrLen : Nat := 2

/-- `CSUM_LEN` (R2). -/
abbrev Config.csumLen : Nat := 2

/-- `PAYLOAD_OFF`: the offset of the first payload byte (R2, R49). -/
abbrev Config.payloadOff : Nat := 4

/-- The two relations of R3 without which a configuration is refused:
`PKT_LEN = HDR_LEN + CSUM_LEN + 2 * COLS` and `ROWS <= 2 ^ SEQ_BITS`. -/
def Config.wf (c : Config) : Bool :=
  c.pktLen == Config.hdrLen + Config.csumLen + 2 * c.cols && Nat.ble c.rows 4096

/-- The reference deployment (R2, R5): 60 rows of 80 samples, 164-byte packets, the default header layout. The spec promises no
value of `TX_FILL`; the one named here is a DESIGN CHOICE that nothing reads (log entry 23). -/
def Config.reference : Config := { txFill := 0x00#8 }

/-- The small deployment of `95_test_vectors.md`: 3 rows of 2 samples, 8-byte packets, 3 iterations (allowed by R3). -/
def Config.small : Config := { Config.reference with rows := 3, cols := 2, pktLen := 8, nIter := 3 }

/-- The alternative header layout L3 of D2, put over any configuration. -/
def Config.withLayoutL3 (c : Config) : Config :=
  { c with discardMask := 0x0F00#16, flagMask := 0xF000#16, seqMask := 0x0FFF#16, seqShift := 0 }

/-! ### Free values

Each has no body: nothing can be proved of the value. The `Nat` argument is the draw counter of the state. -/

/-- What a byte of `PKT` that holds no value reads as, by draw and address (R29, R88, U4, U5). Log entry 5. -/
opaque Config.freeByte : Nat → Nat → Byte

/-- What the host reads from a frame cell that holds no value, by draw and address (R29, R125, U4). Log entry 4. -/
opaque Config.freeCell : Nat → Nat → Half

/-- The bits of `ERRINFO.EXPECTED` above the transport code after a transport fault: unspecified (R23, R132). Log entry 6. -/
opaque Config.freeErrHigh : Nat → Half

/-- `ERRINFO[27:0]` after a transport fault: unspecified (R23, R132). Log entry 6. -/
opaque Config.freeErrLow : Nat → BitVec 28

/-- `CRC` after RESET: unspecified (R32, R153). Log entry 2. -/
opaque Config.freeCrc : Nat → Half

/-- `SEQ` after RESET: unspecified (R32, R153). Log entry 2. -/
opaque Config.freeSeq : Nat → SeqNum

/-- `RXCRC` after RESET: unspecified (R32, R153). Log entry 2. -/
opaque Config.freeRxcrc : Nat → Half

/-- `ERRINFO` after RESET: unspecified (R32, R153). Log entry 2. -/
opaque Config.freeErrinfo : Nat → BitVec 44

end Sys2Proof
end

