-- ==== Sys2Proof/Syntax.lean ====
section
/-! DEFINITION. The block's operations, one constructor per row of `spec/opcode_table.json`, and the words that carry them. -/

namespace Sys2Proof

/-- Every operation of the opcode table (`30_encoding.md` section 6), in the table's order: the two packet
classes, the four codes of the engine input `eop`, the seventeen codes of `STATE`, the host's inputs, and the six
composites, which have no bit pattern of their own. -/
inductive Instr where
  /-- DISCARD: a packet whose marker nibble is all ones (R62); the operand is the whole packet. -/
  | discard (p : List Byte)
  /-- DATA: any other packet (R63); the operand is the whole packet. -/
  | data (p : List Byte)
  /-- CRC.HOLD: `eop = 00` (R73). -/
  | crcHold
  /-- CRC.BYTE: `eop = 01` with the engine's 8-bit data input (R78). -/
  | crcByte (b : Byte)
  /-- CRC.INIT: `eop = 10` with the engine's 16-bit data input (R77). -/
  | crcInit (v : Half)
  /-- CRC.RSVD: `eop = 11`, treated as hold (R73). -/
  | crcRsvd
  /-- IDLE: wait for SELECT (R113). -/
  | idle
  /-- SELECTED: wait for START (R113). -/
  | selected
  /-- OPOLL: the outer-loop poll (R117). -/
  | opoll
  /-- IPOLL: the discard-retry-loop poll (R86). -/
  | ipoll
  /-- XFER: one bus transfer (R87). -/
  | xfer
  /-- CLASSIFY: the discard test (R89). -/
  | classify
  /-- SEQX: sequence extraction (R95). -/
  | seqx
  /-- CRCX: checksum extraction (R96). -/
  | crcx
  /-- CANON: canonicalization (R97). -/
  | canon
  /-- CRCRUN: checksum recomputation (R98). -/
  | crcrun
  /-- COMPARE: checksum comparison (R99). -/
  | compare
  /-- SEQCHK: the sequence-number range check (R100). -/
  | seqchk
  /-- STORE: the row store (R107). -/
  | store
  /-- NEXT: the iteration advance (R118). -/
  | next
  /-- DONE: terminal, frame complete (R119). -/
  | done
  /-- CANCELLED: terminal, cancelled (R120). -/
  | cancelled
  /-- FAULT: terminal, a fault is recorded (R121). -/
  | fault
  /-- NOP: `cmd = 00` (R69). -/
  | nop
  /-- SELECT: `cmd = 01` (R115). -/
  | select
  /-- START: `cmd = 10` (R116). -/
  | start
  /-- CMD.RSVD: `cmd = 11`, treated as NOP (R69). -/
  | cmdRsvd
  /-- CANCEL: `cancel = 1` (R123, R137). -/
  | cancel
  /-- RESET: `rst = 1` (R131, R153). -/
  | reset
  /-- FRAME.READ: the host read port with its 13-bit address (R125). -/
  | frameRead (a : BitVec 13)
  /-- CRC.BUF: the source's `checksum(initial, buffer)` (R79). -/
  | crcBuf (initial : Half) (buffer : List Byte)
  /-- SYNC: the packet synchronizer as one operation (R85). -/
  | sync
  /-- PROCESS: the validator and reassembler as one operation (R94). -/
  | process
  /-- SAMPLE.DECODE: sample `c` of the payload (R105). -/
  | sampleDecode (c : Nat)
  /-- ROW.ADDR: the frame address of column `c` in row `SEQ` (R106). -/
  | rowAddr (c : Nat)
  /-- CAPTURE: a whole capture session (R112). -/
  | capture
  deriving DecidableEq, Repr

/-- What the decoder reads: a value on one of the quantities that the opcode table's `pattern_over` names. -/
inductive InstrWord where
  /-- The sequencer state register `STATE[4:0]` (R68). -/
  | seq (code : BitVec 5)
  /-- The bytes one transfer returned, first byte received first (R36, R54). -/
  | packet (bytes : List Byte)
  /-- The command input `cmd[1:0]` (R69). -/
  | cmd (c : BitVec 2)
  /-- The input `cancel` (R69). -/
  | cancel (line : BitVec 1)
  /-- The input `rst` (R69). -/
  | rst (line : BitVec 1)
  /-- The frame read address `a[12:0]` (R125, D9). -/
  | frameAddr (a : BitVec 13)
  /-- The engine's inputs: `eop[1:0]`, the 8-bit and the 16-bit data input (R73). -/
  | engine (eop : BitVec 2) (byte : Byte) (initial : Half)
  deriving DecidableEq, Repr

/-- One entry of the schedule of the block's inputs: which input is active before the sequencer's next step
(R28, R69, U16; log entry 7). -/
inductive PortSample where
  /-- No input is active: the sequencer takes one step. -/
  | quiet
  /-- No input is active and the sequencer takes the answered packet whole, in one fused step (R127; log entry 9). -/
  | take
  /-- The command input holds `c`. -/
  | cmd (c : BitVec 2)
  /-- The cancellation input holds `line`. -/
  | cancel (line : BitVec 1)
  /-- The reset input holds `line`. -/
  | rst (line : BitVec 1)
  /-- The host drives the read port's address. -/
  | frameAddr (a : BitVec 13)
  /-- The engine's own inputs, where the engine is used alone (R84). -/
  | engine (eop : BitVec 2) (byte : Byte) (initial : Half)
  deriving DecidableEq, Repr

/-- Why the decoder refuses a word. -/
inductive Reject where
  /-- A `STATE` code of 17 to 31, which names no micro-operation (R18, R68). -/
  | stateCode (code : BitVec 5)
  /-- A packet that does not have `PKT_LEN` bytes: it does not exist in the model (R54, D26). -/
  | packetLength (n : Nat)
  /-- `cancel = 0`: no request is delivered, so there is no operation (R69). -/
  | cancelLow
  /-- `rst = 0`: no reset, so there is no operation (R69). -/
  | rstLow
  deriving DecidableEq, Repr

end Sys2Proof
end

