-- ==== Sys2Proof/Decode.lean ====
section
/-! DEFINITION. The decoder of every encoded operation, the encoder beside it, and the packet's header fields.

Rules: `30_encoding.md` R54 to R73; `opcode_table.json`. Operations of format `COMPOSITE` have no encoding. -/

namespace Sys2Proof

/-! ### The codes of `STATE` (R68) -/

abbrev Code.idle : BitVec 5 := 0#5
abbrev Code.selected : BitVec 5 := 1#5
abbrev Code.opoll : BitVec 5 := 2#5
abbrev Code.ipoll : BitVec 5 := 3#5
abbrev Code.xfer : BitVec 5 := 4#5
abbrev Code.classify : BitVec 5 := 5#5
abbrev Code.seqx : BitVec 5 := 6#5
abbrev Code.crcx : BitVec 5 := 7#5
abbrev Code.canon : BitVec 5 := 8#5
abbrev Code.crcrun : BitVec 5 := 9#5
abbrev Code.compare : BitVec 5 := 10#5
abbrev Code.seqchk : BitVec 5 := 11#5
abbrev Code.store : BitVec 5 := 12#5
abbrev Code.next : BitVec 5 := 13#5
abbrev Code.done : BitVec 5 := 14#5
abbrev Code.cancelled : BitVec 5 := 15#5
abbrev Code.fault : BitVec 5 := 16#5

/-! ### Header fields -/

/-- Two bytes read as one 16-bit value, the first in bits 15 to 8 (R43, R44, R55). -/
def joinBytes (hi lo : Byte) : Half := hi ++ lo

/-- The marker test over the header word: all bits of `DISCARD_MASK` are 1 (R56). -/
def carriesMarker (c : Config) (h : Half) : Bool := (h &&& c.discardMask) == c.discardMask

/-- The sequence number in a header word: masked, shifted, cut to 12 bits (R58, R95). -/
def seqOfHeader (c : Config) (h : Half) : SeqNum := ((h &&& c.seqMask) >>> c.seqShift).setWidth 12

/-- The flag bits of a header word (R57). -/
def flagsOfHeader (c : Config) (h : Half) : Half := h &&& c.flagMask

/-- A header word with its flag bits cleared (R57, R97). -/
def clearFlags (c : Config) (h : Half) : Half := h &&& ~~~c.flagMask

/-- The transmitted checksum from bytes 2 and 3 (R44, R59, R96). -/
def checksumField (c : Config) (b2 b3 : Byte) : Half :=
  if c.csumBigEndian then joinBytes b2 b3 else joinBytes b3 b2

/-- The header word of a packet given as a list of bytes (R55). -/
def headerOfBytes (p : List Byte) : Half := joinBytes (p.getD 0 0#8) (p.getD 1 0#8)

/-! ### The decoder -/

/-- The micro-operation a `STATE` code names (R68). -/
def decodeState (code : BitVec 5) : Except Reject Instr :=
  match code.toNat with
  | 0 => .ok .idle
  | 1 => .ok .selected
  | 2 => .ok .opoll
  | 3 => .ok .ipoll
  | 4 => .ok .xfer
  | 5 => .ok .classify
  | 6 => .ok .seqx
  | 7 => .ok .crcx
  | 8 => .ok .canon
  | 9 => .ok .crcrun
  | 10 => .ok .compare
  | 11 => .ok .seqchk
  | 12 => .ok .store
  | 13 => .ok .next
  | 14 => .ok .done
  | 15 => .ok .cancelled
  | 16 => .ok .fault
  | _ => .error (.stateCode code)

/-- The class of a received packet, DISCARD first (R61 to R63). -/
def decodePacket (c : Config) (p : List Byte) : Except Reject Instr :=
  if p.length = c.pktLen then
    .ok (if carriesMarker c (headerOfBytes p) then .discard p else .data p)
  else .error (.packetLength p.length)

/-- The host command a `cmd` code names (R69). -/
def decodeCmd (k : BitVec 2) : Instr :=
  match k.toNat with
  | 0 => .nop
  | 1 => .select
  | 2 => .start
  | _ => .cmdRsvd

/-- The engine operation an `eop` code names, with the data input that operation takes (R73). -/
def decodeEngine (eop : BitVec 2) (byte : Byte) (initial : Half) : Instr :=
  match eop.toNat with
  | 0 => .crcHold
  | 1 => .crcByte byte
  | 2 => .crcInit initial
  | _ => .crcRsvd

/-- The decoder: total on every word, refusing by name what names no operation. -/
def decode (c : Config) (w : InstrWord) : Except Reject Instr :=
  match w with
  | .seq code => decodeState code
  | .packet p => decodePacket c p
  | .cmd k => .ok (decodeCmd k)
  | .cancel line => if line = 1#1 then .ok .cancel else .error .cancelLow
  | .rst line => if line = 1#1 then .ok .reset else .error .rstLow
  | .frameAddr a => .ok (.frameRead a)
  | .engine eop byte initial => .ok (decodeEngine eop byte initial)

/-! ### The encoder -/

/-- The word of each encoded operation, from the table's `encoding` column; the six composites have none. A data
input an engine operation does not take is driven to 0. -/
def encode (i : Instr) : Option InstrWord :=
  match i with
  | .discard p => some (.packet p)
  | .data p => some (.packet p)
  | .crcHold => some (.engine 0b00#2 0#8 0#16)
  | .crcByte b => some (.engine 0b01#2 b 0#16)
  | .crcInit v => some (.engine 0b10#2 0#8 v)
  | .crcRsvd => some (.engine 0b11#2 0#8 0#16)
  | .idle => some (.seq 0b00000#5)
  | .selected => some (.seq 0b00001#5)
  | .opoll => some (.seq 0b00010#5)
  | .ipoll => some (.seq 0b00011#5)
  | .xfer => some (.seq 0b00100#5)
  | .classify => some (.seq 0b00101#5)
  | .seqx => some (.seq 0b00110#5)
  | .crcx => some (.seq 0b00111#5)
  | .canon => some (.seq 0b01000#5)
  | .crcrun => some (.seq 0b01001#5)
  | .compare => some (.seq 0b01010#5)
  | .seqchk => some (.seq 0b01011#5)
  | .store => some (.seq 0b01100#5)
  | .next => some (.seq 0b01101#5)
  | .done => some (.seq 0b01110#5)
  | .cancelled => some (.seq 0b01111#5)
  | .fault => some (.seq 0b10000#5)
  | .nop => some (.cmd 0b00#2)
  | .select => some (.cmd 0b01#2)
  | .start => some (.cmd 0b10#2)
  | .cmdRsvd => some (.cmd 0b11#2)
  | .cancel => some (.cancel 0b1#1)
  | .reset => some (.rst 0b1#1)
  | .frameRead a => some (.frameAddr a)
  | .crcBuf _ _ => none
  | .sync => none
  | .process => none
  | .sampleDecode _ => none
  | .rowAddr _ => none
  | .capture => none

/-! ### The host's numbering of the opcode table's words -/

/-- The bytes of a packet of `c.pktLen` bytes numbered as the table numbers `H`: bits 15 to 8 of `w` are the first
byte, bits 7 to 0 the second (R55), and bits 16 up are the following bytes, eight bits each. -/
def packetOfNumber (c : Config) (w : Nat) : List Byte :=
  BitVec.ofNat 8 (w / 256) :: BitVec.ofNat 8 w ::
    (List.range (c.pktLen - 2)).map (fun k => BitVec.ofNat 8 (w / 2 ^ (16 + 8 * k)))

/-- The word a number of the opcode table stands for. The table's patterns are over several separate inputs and the
number does not say which, so the width decides: one byte is `STATE[4:0]`, two bytes or more are a packet that begins
with the header word (log entry 10). -/
def tableWord (c : Config) (nbits w : Nat) : Option InstrWord :=
  if nbits = 8 then some (.seq (BitVec.ofNat 5 w))
  else if 16 ≤ nbits then some (.packet (packetOfNumber c w))
  else none

/-- The instruction the decoder reads from a word numbered as `spec/opcode_table.json` numbers it, in the reference
deployment. -/
def decodeTableWord (nbits w : Nat) : Option Instr :=
  match tableWord Config.reference nbits w with
  | none => none
  | some word =>
    match decode Config.reference word with
    | .ok i => some i
    | .error _ => none

end Sys2Proof
end

