-- ==== Sys2Proof/Machine/Memory.lean ====
section
/-! DEFINITION. Sparse memories in one canonical form: the packet buffer (bytes) and the frame buffer (16-bit cells).

An unlisted address holds NO VALUE, which is what the spec gives every byte of `PKT` and every cell of `FRAME` after
reset (R29, R32, R154). So no entry can equal what an unlisted address reads as, and the canonical form is that the
addresses rise strictly. -/

namespace Sys2Proof.Machine

/-- A memory whose cells have `w` bits: its listed addresses and their values. At `w = 8` this is a list of
`Host.Cell`. -/
abbrev Memory (w : Nat) := List (Nat × BitVec w)

/-- The value held at address `a`; `none` where no value is held (R29, R36, R42). -/
def Memory.read {w : Nat} (m : Memory w) (a : Nat) : Option (BitVec w) :=
  match m with
  | [] => none
  | (b, v) :: rest => if a = b then some v else Memory.read rest a

/-- Write `v` at address `a` and change no other address (R41). -/
def Memory.write {w : Nat} (m : Memory w) (a : Nat) (v : BitVec w) : Memory w :=
  match m with
  | [] => [(a, v)]
  | (b, u) :: rest =>
    if a < b then (a, v) :: (b, u) :: rest
    else if a = b then (a, v) :: rest
    else (b, u) :: Memory.write rest a v

/-- Write the values of a list at `a`, `a + 1`, ... in that order (R47, R107). -/
def Memory.writeFrom {w : Nat} (m : Memory w) (a : Nat) (vs : List (BitVec w)) : Memory w :=
  match vs with
  | [] => m
  | v :: rest => Memory.writeFrom (Memory.write m a v) (a + 1) rest

/-- The memory that holds exactly the values of a list, the first at address `a` (R36, R87). -/
def Memory.ofList {w : Nat} (a : Nat) (vs : List (BitVec w)) : Memory w :=
  match vs with
  | [] => []
  | v :: rest => (a, v) :: Memory.ofList (a + 1) rest

/-- Every listed address is above `a`. -/
def Memory.above {w : Nat} (a : Nat) (m : Memory w) : Bool :=
  match m with
  | [] => true
  | (b, _) :: rest => Nat.blt a b && Memory.above a rest

/-- The canonical form: the listed addresses rise strictly. -/
def Memory.wf {w : Nat} (m : Memory w) : Bool :=
  match m with
  | [] => true
  | (b, _) :: rest => Memory.above b rest && Memory.wf rest

/-- Every listed address is below `n`: the memory lies in the address space of `n` cells (R35). -/
def Memory.within {w : Nat} (n : Nat) (m : Memory w) : Bool :=
  match m with
  | [] => true
  | (b, _) :: rest => Nat.blt b n && Memory.within n rest

/-- Every address below `n` holds a value. -/
def Memory.full {w : Nat} (n : Nat) (m : Memory w) : Bool :=
  (List.range n).all (fun a => (Memory.read m a).isSome)

end Sys2Proof.Machine
end

