-- ==== Sys2Proof/Machine/State.lean ====
section
/-! DEFINITION. The state of the block (`10_state.md`), why a step can stop, and the state after reset.

Plain data. The twelve items of R10 come first, then the bookkeeping of R30, then the model's own fields: the values
the spec's outputs present, the environment of R28 as lists that a step reads, and the counter of free values. -/

namespace Sys2Proof.Machine

/-- The answer of the bus transport to one transfer (R87, D26). -/
inductive Answer where
  /-- `Ok(b)`: the bytes received, the first received first. -/
  | ok (bytes : List Byte)
  /-- `Err(t)`: the transfer failed with transport code `t`. -/
  | err (t : TransportCode)
  deriving DecidableEq, Repr

/-- An event of `TRACE` (R30). -/
inductive TraceEvent where
  /-- `Xfer(k, Ok | Err)`: transfer `k` was answered; `ok` says how. -/
  | xfer (k : Nat) (ok : Bool)
  /-- `Discard(k)`: the packet of transfer `k` was dropped. -/
  | discard (k : Nat)
  /-- `RowWrite(k, row)`: the packet of transfer `k` was stored in `row`. -/
  | rowWrite (k row : Nat)
  deriving DecidableEq, Repr

/-- The two phases of R24. -/
inductive Phase where
  | syncing
  | accumulating
  deriving DecidableEq, Repr

/-- What stops the machine with a fault of the MODEL. The block's own three faults are no such stops: they are next
states whose `STATE` is `FAULT` (R141). -/
inductive Fault where
  /-- Raised by SAMPLE.DECODE with a column outside `0 .. COLS - 1`: the bytes it names lie outside `PKT`, where
  R36 defines no read. Safe: the model stops and gives no value. -/
  | packetAddress (a : Nat)
  /-- Raised by STORE (and by a composite through it) with `SEQ >= ROWS`: the cell lies outside `FRAME`, an address
  R41 and R110 say is never formed. Safe: the model stops where the spec gives no store. -/
  | frameAddress (a : Nat)
  deriving DecidableEq, Repr

/-- Why the machine refuses to go on. -/
inductive Refusal where
  /-- Raised by an arm of `exec` whose instruction has no meaning yet. Safe. No arm of this model raises it. -/
  | notModelled (mnemonic : String)
  /-- Raised by `step` on a configuration that breaks a relation of R3, which R3 says is refused. Safe. -/
  | badConfig
  /-- Raised by `step` on a state whose `STATE` code is 17 to 31, which R68 and U8 say is refused. Safe. -/
  | stateCode (code : BitVec 5)
  /-- Raised by `step` on a state whose `ERR` code is 4 to 7, which U8 says is refused. Safe. -/
  | errCode (code : BitVec 3)
  /-- Raised by `step` where the decoder refuses the word it fetched. Safe. -/
  | rejected (r : Reject)
  /-- Raised by XFER, DISCARD and DATA on an answer that does not have `PKT_LEN` bytes: such an answer does not exist
  in the model (R87, D26). Safe. -/
  | answerLength (n : Nat)
  /-- Raised by FRAME.READ while `busy = 1`: the frame is owned by the loop (R125, U7). Safe. -/
  | frameBusy
  /-- Raised by FRAME.READ at an address of `ROWS * COLS` or more (R125, U7). Safe. -/
  | frameReadAddress (a : Nat)
  /-- Raised by `step` when engine inputs are driven on an instance that is the whole block: no port reaches `CRC`
  there (R33, R147). Safe. -/
  | noEnginePort
  deriving DecidableEq, Repr

/-- The state of the block and of the environment it runs in. -/
structure State where
  /-- The configuration of this instance (R2 to R6, R28). No operation writes it. -/
  cfg : Config
  /-- `CRC`, 16 bits: the accumulator of the checksum engine (R11). -/
  crc : Half
  /-- `SEQ`, 12 bits: the sequence number of the packet in `PKT` (R12). -/
  seq : SeqNum
  /-- `RXCRC`, 16 bits: the transmitted checksum of the packet in `PKT` (R13). -/
  rxcrc : Half
  /-- `ITER`: accepted packets of the current capture (R14); 6 bits in the reference deployment, where it never
  wraps (R31). A natural number, as R14 allows, so that any `N_ITER` fits. -/
  iter : Nat
  /-- `PKT`, `PKT_LEN` bytes (R15); an unlisted byte holds no value (R29). -/
  pkt : Memory 8
  /-- `TABLE`, 256 entries of 16 bits (R16). No operation writes it. -/
  table : Vector Half 256
  /-- `FRAME`, `ROWS * COLS` cells of 16 bits at linear addresses (R17, R40); an unlisted cell holds no value (R29). -/
  frame : Memory 16
  /-- `STATE`, 5 bits: the sequencer state register, the block's program counter (R18). -/
  state : BitVec 5
  /-- `RUN`: the Running Flag (R20). -/
  run : Bool
  /-- `CS`: the chip-select output register, true when asserted (R21). -/
  cs : Bool
  /-- `ERR`, 3 bits: the fault class (R22). -/
  err : BitVec 3
  /-- `ERRINFO`, 44 bits: `EXPECTED` in 43..28, `COMPUTED` in 27..12, `ESEQ` in 11..0 (R23, R71). -/
  errinfo : BitVec 44
  /-- `POS`: transfers answered since reset (R30). -/
  pos : Nat
  /-- `TRACE`: the events since reset, oldest first (R30). -/
  trace : List TraceEvent
  /-- MODEL's own: the value last presented on the read port's 16-bit data output (R125, D9). -/
  readData : Half
  /-- MODEL's own: the value last produced by SAMPLE.DECODE performed alone (R105). -/
  sampleOut : Half
  /-- MODEL's own: the value last produced by ROW.ADDR performed alone (R106). -/
  rowAddrOut : Nat
  /-- MODEL's own: what arrives on the block's inputs, the next first (R28, R69); empty means quiet for ever. -/
  ports : List PortSample
  /-- MODEL's own: the answers the bus transport will give, the next first (R28). -/
  bus : List Answer
  /-- MODEL's own: the answers that come after those of `bus`, again and again without end (R28, R91, R163; log entry 15);
  empty means that after `bus` no answer comes (R87). No operation writes it. -/
  busLoop : List Answer
  /-- MODEL's own: how many free values have been drawn (log entry 3). -/
  draws : Nat
  deriving DecidableEq, Repr

/-- The machine right after reset (R32, R153): `STATE = IDLE`, `RUN = 1`, `CS = 0`, `ITER = 0`, `ERR = 0`, `TABLE`
its constants, `PKT` and `FRAME` without any value, `POS = 0`, `TRACE` empty. The spec gives `CRC`, `SEQ`, `RXCRC` and
`ERRINFO` no reset value; the zeros here are a DESIGN CHOICE (log entry 1). The model's own fields start empty. -/
def State.reset : State where
  cfg := Config.reference
  crc := 0#16
  seq := 0#12
  rxcrc := 0#16
  iter := 0
  pkt := []
  table := crcTable
  frame := []
  state := Code.idle
  run := true
  cs := false
  err := 0#3
  errinfo := 0#44
  pos := 0
  trace := []
  readData := 0#16
  sampleOut := 0#16
  rowAddrOut := 0
  ports := []
  bus := []
  busLoop := []
  draws := 0

/-- What a meaning answers. -/
abbrev Result := Host.Outcome State Fault Refusal

end Sys2Proof.Machine
end

