-- ==== Sys2Proof/Machine/Operands.lean ====
section
/-! DEFINITION. Every operand form: the bytes, words and fields that an operation reads from the state. -/

namespace Sys2Proof.Machine

/-! ### The packet buffer -/

/-- `PKT[i]` (R8, R36). A byte that holds no value reads as a free value of the current draw (R29; log entry 5). -/
def State.pktByte (s : State) (i : Nat) : Byte := (s.pkt.read i).getD (Config.freeByte s.draws i)

/-- `MemRead(PKT, a, n)`: the bytes at `a`, `a + 1`, ..., lowest address first (R36). -/
def State.pktBytes (s : State) (a n : Nat) : List Byte := (List.range n).map (fun k => s.pktByte (a + k))

/-- The header word `H = PKT[0] || PKT[1]` (R44, R55). -/
def State.header (s : State) : Half := joinBytes (s.pktByte 0) (s.pktByte 1)

/-- The transmitted checksum in bytes 2 and 3, in the configured byte order (R44, R59). -/
def State.transmittedChecksum (s : State) : Half := checksumField s.cfg (s.pktByte 2) (s.pktByte 3)

/-- `sample(c) = PKT[4 + 2c] || PKT[5 + 2c]` (R43, R60, R105). -/
def State.sample (s : State) (c : Nat) : Half :=
  joinBytes (s.pktByte (Config.payloadOff + 2 * c)) (s.pktByte (Config.payloadOff + 1 + 2 * c))

/-- The samples of one row, column 0 first (R60, R107). -/
def State.samples (s : State) : List Half := (List.range s.cfg.cols).map s.sample

/-! ### The frame buffer -/

/-- The number of cells of `FRAME` (R35, R39). -/
def frameCells (c : Config) : Nat := c.rows * c.cols

/-- The linear address of cell `(r, c)`: `r * COLS + c` (R40, R106). -/
def cellAddress (cfg : Config) (r c : Nat) : Nat := r * cfg.cols + c

/-! ### The error record -/

/-- `ERRINFO` from its three fields (R71). -/
def packErrinfo (expected computed : Half) (eseq : SeqNum) : BitVec 44 := (expected ++ computed ++ eseq : BitVec 44)

/-- `ERRINFO.EXPECTED` (R71). -/
def errExpected (e : BitVec 44) : Half := e.extractLsb' 28 16

/-- `ERRINFO.COMPUTED` (R71). -/
def errComputed (e : BitVec 44) : Half := e.extractLsb' 12 16

/-- `ERRINFO.ESEQ` (R71). -/
def errSeq (e : BitVec 44) : SeqNum := e.extractLsb' 0 12

/-! ### Transport codes -/

/-- The 16-bit mask of the `n` lowest bits. -/
def lowMask (n : Nat) : Half := BitVec.ofNat 16 (2 ^ n - 1)

/-- The code of a failed transfer: the `tcodeBits` low bits of the answer, zero-extended (R72; log entry 23). -/
def transportCode (c : Config) (t : TransportCode) : Half := t &&& lowMask c.tcodeBits

/-- `ERRINFO` of a transport fault: the low bits of `EXPECTED`, eight or as many as a wider code has, hold the code, and every
other bit is free (R23, R132; log entry 6). -/
def transportErrinfo (c : Config) (draw : Nat) (t : TransportCode) : BitVec 44 :=
  ((transportCode c t ||| (Config.freeErrHigh draw &&& ~~~lowMask (max 8 c.tcodeBits))) ++ Config.freeErrLow draw : BitVec 44)

/-- The names the spec gives transport codes (R72). No rule of the block depends on them. -/
inductive TransportName where
  | unsupportedFeature
  | invalidParameter
  | invalidHandle
  | resourceExhaustion
  | platformUninitialized
  | other
  deriving DecidableEq, Repr

/-- The total mapping from a code to its name (R72, R145). -/
def transportName (c : Config) (t : TransportCode) : TransportName :=
  match (transportCode c t).toNat with
  | 1 => .unsupportedFeature
  | 2 => .invalidParameter
  | 3 => .invalidHandle
  | 4 => .resourceExhaustion
  | 5 => .platformUninitialized
  | _ => .other

/-! ### The transmit side -/

/-- The bytes the block drives during a transfer: `PKT_LEN` bytes of `TX_FILL` (R148, D15). No rule records them. -/
def txBuffer (c : Config) : List Byte := List.replicate c.pktLen c.txFill

/-! ### The stream -/

/-- The answers the transport gives next, the first in front: those of `bus`, and once they are used up those of `busLoop`, which
come again and again (R28, R87). Empty exactly where no answer ever comes. -/
def State.answers (s : State) : List Answer :=
  match s.bus with
  | [] => s.busLoop
  | a :: rest => a :: rest

end Sys2Proof.Machine
end

