-- ==== Sys2Proof/Machine/Flags.lean ====
section
/-! DEFINITION. The conditions computed within a step (R25) and the status outputs that hold no state (R24). -/

namespace Sys2Proof.Machine

/-- `is_discard`: the packet in `PKT` carries the discard marker (R25, R56, R89). -/
def State.isDiscard (s : State) : Bool := carriesMarker s.cfg s.header

/-- `crc_match`: the transmitted and the recomputed checksum are equal (R25, R99). -/
def State.crcMatch (s : State) : Bool := s.rxcrc == s.crc

/-- `seq_ok`: the sequence number is a row index (R25, R100). -/
def State.seqOk (s : State) : Bool := Nat.blt s.seq.toNat s.cfg.rows

/-- `frame_valid` (R24). -/
def State.frameValid (s : State) : Bool := s.state == Code.done

/-- `busy`: `STATE` is one of `OPOLL` to `NEXT`, codes 2 to 13 (R24). -/
def State.busy (s : State) : Bool := Nat.ble 2 s.state.toNat && Nat.ble s.state.toNat 13

/-- `PHASE`, defined only while `busy = 1` (R24, D8). -/
def State.phase (s : State) : Option Phase :=
  if s.busy then some (if s.iter = 0 then .syncing else .accumulating) else none

/-- `STATE` is one of the three terminal states (R113). -/
def State.terminal (s : State) : Bool :=
  s.state == Code.done || s.state == Code.cancelled || s.state == Code.fault

end Sys2Proof.Machine
end

