-- ==== Sys2Proof/Machine/Ops.lean ====
section
/-! DEFINITION. The named operations over the state that the meanings share: control transfer, the trace, reception of a
packet, classification, entry to the terminal states (a fault among them), reset, and sequencing of meanings.

There is no return from a fault or from a cancellation (R144), so no operation for it: only RESET leaves a terminal
state. -/

namespace Sys2Proof.Machine

/-! ### Control transfer and bookkeeping -/

/-- `STATE <- code` (R8, R19). -/
def State.goto (s : State) (code : BitVec 5) : State := { s with state := code }

/-- `TRACE <- TRACE ++ [e]` (R30). -/
def State.log (s : State) (e : TraceEvent) : State := { s with trace := s.trace ++ [e] }

/-- The draw counter moves on: whatever is read next without a value is a fresh free value (R29; log entry 3). -/
def State.draw (s : State) : State := { s with draws := s.draws + 1 }

/-! ### The transfer -/

/-- `STATE <- XFER`: the transfer is asked for, and until its answer `PKT` holds no defined value (R26, R86). -/
def State.requestTransfer (s : State) : State := { s with pkt := [], state := Code.xfer }

/-- The transport answered `Ok(b)`: `PKT` is `b`, `POS` advances, the event is recorded, `STATE <- CLASSIFY` (R87). -/
def State.receive (s : State) (b : List Byte) : State :=
  { s with
    pkt := Memory.ofList 0 b
    pos := s.pos + 1
    trace := s.trace ++ [TraceEvent.xfer (s.pos + 1) true]
    state := Code.classify }

/-- The end of CLASSIFY for a packet that is, or is not, a discard packet (R89). -/
def State.classifyAs (s : State) (discard : Bool) : State :=
  if discard then ((s.log (TraceEvent.discard s.pos)).goto Code.ipoll).draw else (s.goto Code.seqx).draw

/-! ### Entry to the terminal states -/

/-- The entry to `DONE` (R119). -/
def State.enterDone (s : State) : State := { s with cs := false, state := Code.done }

/-- The entry to `CANCELLED` (R120, R143). -/
def State.enterCancelled (s : State) : State := { s with cs := false, state := Code.cancelled }

/-- `raise F(info)`, the one fault entry (R141): the class and the record are written, `CS` is deasserted, control goes to
`FAULT`; nothing else changes. -/
def State.raiseFault (s : State) (code : BitVec 3) (info : BitVec 44) : State :=
  { s with err := code, errinfo := info, cs := false, state := Code.fault }

/-- `raise TransportError(t)` after the failed transfer was counted: every byte of `PKT` is without a value, and the bits
of `ERRINFO` that the rule leaves unspecified are free (R87, R88, R132, D23). -/
def State.raiseTransport (s : State) (t : TransportCode) : State :=
  ({ s with
      pkt := []
      pos := s.pos + 1
      trace := s.trace ++ [TraceEvent.xfer (s.pos + 1) false] }.raiseFault 1#3 (transportErrinfo s.cfg s.draws t)).draw

/-- `raise ChecksumMismatch(RXCRC, CRC, SEQ)` (R99, R132). -/
def State.raiseChecksum (s : State) : State := s.raiseFault 2#3 (packErrinfo s.rxcrc s.crc s.seq)

/-- `raise SeqOutOfRange(SEQ)`; the record holds both checksums as well (R100, R132). -/
def State.raiseSeqRange (s : State) : State := s.raiseFault 3#3 (packErrinfo s.rxcrc s.crc s.seq)

/-! ### Reset -/

/-- The reset of a running block (R131, R153): every item takes its reset value; the items whose reset value the spec
calls unspecified are free (log entry 2). A transfer in flight is abandoned and its answer dropped (R155). The
configuration, the inputs still to come and the rest of the stream are the environment's and stay. -/
def State.afterReset (s : State) : State :=
  { State.reset with
    cfg := s.cfg
    crc := Config.freeCrc s.draws
    seq := Config.freeSeq s.draws
    rxcrc := Config.freeRxcrc s.draws
    errinfo := Config.freeErrinfo s.draws
    ports := s.ports
    bus := if s.state = Code.xfer then s.answers.tail else s.bus
    busLoop := s.busLoop
    draws := s.draws + 1 }

/-! ### Sequencing -/

/-- Go on with `f` from the next state; a stop stays a stop. -/
def andThen (r : Result) (f : State → Result) : Result :=
  match r with
  | .next s => f s
  | .fault e => .fault e
  | .refused e => .refused e

/-- Go on with `f` only if control is at `code`; otherwise the operation ends here. -/
def whenAt (code : BitVec 5) (f : State → Result) (s : State) : Result :=
  if s.state = code then f s else .next s

end Sys2Proof.Machine
end

