-- ==== Sys2Proof/Machine/Acquisition.lean ====
section
/-! DEFINITION. The acquisition loop's micro-operations, its waiting states and its terminal states
(`44_acquisition.md` sections 2, 4 and 5). -/

namespace Sys2Proof.Machine

/-- IDLE: only SELECT leaves it (R113, R114). -/
def execIdle (s : State) : Result := .next s

/-- SELECTED: only START leaves it (R113, R114). -/
def execSelected (s : State) : Result := .next s

/-- OPOLL: the count test first, then the Running Flag (R117, D7). -/
def execOpoll (s : State) : Result :=
  .next (if s.iter = s.cfg.nIter then s.enterDone
    else if s.run = false then s.enterCancelled
    else s.goto Code.ipoll)

/-- NEXT: the iteration advance (R118). -/
def execNext (s : State) : Result := .next { s with iter := s.iter + 1, state := Code.opoll }

/-- DONE: no step leaves it (R113, R114, R119). -/
def execDone (s : State) : Result := .next s

/-- CANCELLED: no step leaves it (R113, R114, R120). -/
def execCancelled (s : State) : Result := .next s

/-- FAULT: no step leaves it (R113, R114, R121). -/
def execFault (s : State) : Result := .next s

end Sys2Proof.Machine
end

