-- ==== Sys2Proof/Machine/HostPort.lean ====
section
/-! DEFINITION. The host's inputs (`44_acquisition.md` sections 3 and 6): commands, cancellation, reset, the read port. -/

namespace Sys2Proof.Machine

/-- NOP: no effect (R69). -/
def execNop (s : State) : Result := .next s

/-- SELECT: accepted only in IDLE, ignored elsewhere (R115, R126). -/
def execSelect (s : State) : Result :=
  .next (if s.state = Code.idle then { s with cs := true, state := Code.selected } else s)

/-- START: accepted only in SELECTED, ignored elsewhere (R116, R126). -/
def execStart (s : State) : Result :=
  .next (if s.state = Code.selected then { s with iter := 0, state := Code.opoll } else s)

/-- CMD.RSVD: the reserved command, treated as NOP (R69, R126). -/
def execCmdRsvd (s : State) : Result := .next s

/-- CANCEL: `RUN <- 0` and nothing else, in every state (R123, R137). -/
def execCancel (s : State) : Result := .next { s with run := false }

/-- RESET, accepted in every state (R131, R153). -/
def execReset (s : State) : Result := .next s.afterReset

/-- FRAME.READ: refused while the loop owns the frame or outside it; a cell that holds no value reads as a fresh free
value (R125, R29; log entry 4). -/
def execFrameRead (a : BitVec 13) (s : State) : Result :=
  if s.busy then .refused .frameBusy
  else if frameCells s.cfg ≤ a.toNat then .refused (.frameReadAddress a.toNat)
  else
    match s.frame.read a.toNat with
    | some v => .next { s with readData := v }
    | none => .next { s with readData := Config.freeCell s.draws a.toNat, draws := s.draws + 1 }

end Sys2Proof.Machine
end

