-- ==== Sys2Proof/Machine/Reassembler.lean ====
section
/-! DEFINITION. The payload reassembler (`43_reassembler.md`): STORE and its two sub-operations. -/

namespace Sys2Proof.Machine

/-- STORE: the samples of the packet go to row `SEQ`, and the write is recorded (R107). An address outside the frame is
never formed in a run, because SEQCHK faults first; STORE performed there anyway stops with a fault of the model
(R41, R110). -/
def execStore (s : State) : Result :=
  if s.seqOk then
    .next { s with
      frame := s.frame.writeFrom (cellAddress s.cfg s.seq.toNat 0) s.samples
      trace := s.trace ++ [TraceEvent.rowWrite s.pos s.seq.toNat]
      state := Code.next
      draws := s.draws + 1 }
  else .fault (.frameAddress (cellAddress s.cfg s.seq.toNat 0))

/-- SAMPLE.DECODE performed alone: sample `c` is left on the decoder's output (R105; log entry 11). Outside
`0 .. COLS - 1` the bytes lie outside `PKT` (R36). -/
def execSampleDecode (c : Nat) (s : State) : Result :=
  if c < s.cfg.cols then .next { s with sampleOut := s.sample c, draws := s.draws + 1 }
  else .fault (.packetAddress (Config.payloadOff + 2 * c))

/-- ROW.ADDR performed alone: `SEQ * COLS + c`, on natural numbers (R7, R106), is left on the decoder's output
(log entry 11). R106 gives the operation for a `SEQ` known to be below `ROWS` and a column of the payload; that it answers the
uncut number for `SEQ >= ROWS`, where STORE stops, and for `c >= COLS` is the model's choice (DESIGN CHOICE, log entry 11). -/
def execRowAddr (c : Nat) (s : State) : Result :=
  .next { s with rowAddrOut := cellAddress s.cfg s.seq.toNat c }

end Sys2Proof.Machine
end

