-- ==== Sys2Proof/Machine/Synchronizer.lean ====
section
/-! DEFINITION. The packet synchronizer's micro-operations (`41_synchronizer.md` section 2). -/

namespace Sys2Proof.Machine

/-- IPOLL: cancelled if `RUN = 0`, otherwise a transfer is asked for (R86). -/
def execIpoll (s : State) : Result :=
  .next (if s.run = false then s.enterCancelled else s.requestTransfer)

/-- XFER: with no answer the block has no step of its own and waits (R87, R163); `Ok(b)` fills `PKT`; `Err(t)` raises
TransportError (R88). An `Ok` answer of another length than `PKT_LEN` does not exist (D26). -/
def execXfer (s : State) : Result :=
  match s.answers with
  | [] => .next s
  | .ok b :: rest =>
    if b.length = s.cfg.pktLen then .next ({ s with bus := rest }.receive b) else .refused (.answerLength b.length)
  | .err t :: rest => .next ({ s with bus := rest }.raiseTransport t)

/-- CLASSIFY: the discard test over the header word in `PKT` (R89). -/
def execClassify (s : State) : Result := .next (s.classifyAs s.isDiscard)

end Sys2Proof.Machine
end

