-- ==== Sys2Proof/Machine/Validator.lean ====
section
/-! DEFINITION. The packet validator's micro-operations (`42_validator.md` section 2). -/

namespace Sys2Proof.Machine

/-- SEQX: the sequence number of the header word (R95). -/
def execSeqx (s : State) : Result :=
  .next { s with seq := seqOfHeader s.cfg s.header, state := Code.crcx, draws := s.draws + 1 }

/-- CRCX: the transmitted checksum of bytes 2 and 3 (R96). -/
def execCrcx (s : State) : Result :=
  .next { s with rxcrc := s.transmittedChecksum, state := Code.canon, draws := s.draws + 1 }

/-- The packet buffer with the flag bits of the header and the checksum field cleared in place (R97). -/
def State.canonicalPkt (s : State) : Memory 8 :=
  (((s.pkt.write 0 ((clearFlags s.cfg s.header).extractLsb' 8 8)).write 1
    ((clearFlags s.cfg s.header).extractLsb' 0 8)).write 2 0#8).write 3 0#8

/-- CANON: canonicalization in place (R97). -/
def execCanon (s : State) : Result :=
  .next { s with pkt := s.canonicalPkt, state := Code.crcrun, draws := s.draws + 1 }

/-- CRCRUN: the checksum of all `PKT_LEN` bytes with initial value 0 (R83, R98). -/
def execCrcrun (s : State) : Result :=
  .next { s with
    crc := checksum s.table 0#16 (s.pktBytes 0 s.cfg.pktLen)
    state := Code.compare
    draws := s.draws + 1 }

/-- COMPARE: on to SEQCHK, or ChecksumMismatch (R99). -/
def execCompare (s : State) : Result :=
  .next (if s.crcMatch then s.goto Code.seqchk else s.raiseChecksum)

/-- SEQCHK: on to STORE, or SeqOutOfRange (R100). -/
def execSeqchk (s : State) : Result :=
  .next (if s.seqOk then s.goto Code.store else s.raiseSeqRange)

end Sys2Proof.Machine
end

