-- ==== Sys2Proof/Machine/Composite.lean ====
section
/-! DEFINITION. The composites SYNC, PROCESS and CAPTURE, and the two packet classes, over the micro-operations.

A composite runs its micro-operations one after another with no input arriving between them (log entry 12). -/

namespace Sys2Proof.Machine

/-- One turn of the discard-retry loop: IPOLL, XFER, CLASSIFY, ending early where control leaves that line (R85). -/
def syncRound (s : State) : Result :=
  andThen (execIpoll s) (whenAt Code.xfer fun t => andThen (execXfer t) (whenAt Code.classify execClassify))

/-- The discard-retry loop, at most `n` turns. -/
def syncLoop (n : Nat) (s : State) : Result :=
  match n with
  | 0 => .next s
  | k + 1 => andThen (syncRound s) (whenAt Code.ipoll (syncLoop k))

/-- SYNC (R85, R91). The loop has no bound, and as a composite it is followed through every answer of the stream, those that
repeat included: if they are all discards, none will ever end it, and control is left in the loop, in IPOLL, for the next
operation to go on from (log entry 12). Where the answers end, the block waits in XFER. -/
def execSync (s : State) : Result := syncLoop (s.bus.length + s.busLoop.length + 1) s

/-- PROCESS: SEQX, CRCX, CANON, CRCRUN, COMPARE, SEQCHK, STORE, NEXT, ending at a fault (R94). -/
def execProcess (s : State) : Result :=
  andThen (execSeqx s) fun s => andThen (execCrcx s) fun s => andThen (execCanon s) fun s =>
    andThen (execCrcrun s) fun s => andThen (execCompare s) <|
      whenAt Code.seqchk fun s => andThen (execSeqchk s) <|
        whenAt Code.store fun s => andThen (execStore s) execNext

/-- One turn of the outer loop: OPOLL, SYNC, PROCESS, ending early where control leaves that line (R112). -/
def captureRound (s : State) : Result :=
  andThen (execOpoll s) <| whenAt Code.ipoll fun s => andThen (execSync s) (whenAt Code.seqx execProcess)

/-- The outer loop, at most `n` turns. -/
def captureLoop (n : Nat) (s : State) : Result :=
  match n with
  | 0 => .next s
  | k + 1 => andThen (captureRound s) (whenAt Code.opoll (captureLoop k))

/-- CAPTURE: SELECT, START, then `N_ITER` turns of the outer loop and the OPOLL that ends them (R112). In a state where
neither command is accepted no capture starts (R126). -/
def execCapture (s : State) : Result :=
  if s.state = Code.idle ∨ s.state = Code.selected then
    andThen (execSelect s) fun s => andThen (execStart s) (captureLoop (s.cfg.nIter + 1))
  else .next s

/-- DISCARD: the packet answers the transfer in flight and is dropped (R62, R87, R90). With no transfer in flight nothing
takes it (R114, R155). -/
def execDiscard (p : List Byte) (s : State) : Result :=
  if s.state = Code.xfer then
    if p.length = s.cfg.pktLen then .next ((s.receive p).classifyAs true) else .refused (.answerLength p.length)
  else .next s

/-- DATA: the packet answers the transfer in flight and PROCESS runs on it (R63, R87, R94). With no transfer in flight
nothing takes it (R114, R155). -/
def execData (p : List Byte) (s : State) : Result :=
  if s.state = Code.xfer then
    if p.length = s.cfg.pktLen then execProcess ((s.receive p).classifyAs false) else .refused (.answerLength p.length)
  else .next s

end Sys2Proof.Machine
end

