-- ==== Sys2Proof/Machine/Engine.lean ====
section
/-! DEFINITION. The checksum engine's operations (`40_checksum.md` section 2, R73). None reads or writes anything but
`CRC` and `TABLE` (R82). -/

namespace Sys2Proof.Machine

/-- CRC.HOLD: `CRC` unchanged (R73). -/
def execCrcHold (s : State) : Result := .next s

/-- CRC.BYTE (R78). -/
def execCrcByte (b : Byte) (s : State) : Result := .next { s with crc := crcUpdate s.table s.crc b }

/-- CRC.INIT (R77). -/
def execCrcInit (v : Half) (s : State) : Result := .next { s with crc := v }

/-- CRC.RSVD: reserved, treated as hold (R73). -/
def execCrcRsvd (s : State) : Result := .next s

/-- CRC.BUF: CRC.INIT, then one CRC.BYTE per byte of the buffer (R79). -/
def execCrcBuf (initial : Half) (buffer : List Byte) (s : State) : Result :=
  .next { s with crc := checksum s.table initial buffer }

end Sys2Proof.Machine
end

