-- ==== Sys2Proof/Machine/Dispatch.lean ====
section
/-! DEFINITION. The one dispatch: each operation of the opcode table to its meaning. -/

namespace Sys2Proof.Machine

/-- The effect of one operation on the state. -/
def exec (i : Instr) (s : State) : Host.Outcome State Fault Refusal :=
  match i with
  | .discard p => Sys2Proof.Machine.execDiscard p s
  | .data p => Sys2Proof.Machine.execData p s
  | .crcHold => Sys2Proof.Machine.execCrcHold s
  | .crcByte b => Sys2Proof.Machine.execCrcByte b s
  | .crcInit v => Sys2Proof.Machine.execCrcInit v s
  | .crcRsvd => Sys2Proof.Machine.execCrcRsvd s
  | .idle => Sys2Proof.Machine.execIdle s
  | .selected => Sys2Proof.Machine.execSelected s
  | .opoll => Sys2Proof.Machine.execOpoll s
  | .ipoll => Sys2Proof.Machine.execIpoll s
  | .xfer => Sys2Proof.Machine.execXfer s
  | .classify => Sys2Proof.Machine.execClassify s
  | .seqx => Sys2Proof.Machine.execSeqx s
  | .crcx => Sys2Proof.Machine.execCrcx s
  | .canon => Sys2Proof.Machine.execCanon s
  | .crcrun => Sys2Proof.Machine.execCrcrun s
  | .compare => Sys2Proof.Machine.execCompare s
  | .seqchk => Sys2Proof.Machine.execSeqchk s
  | .store => Sys2Proof.Machine.execStore s
  | .next => Sys2Proof.Machine.execNext s
  | .done => Sys2Proof.Machine.execDone s
  | .cancelled => Sys2Proof.Machine.execCancelled s
  | .fault => Sys2Proof.Machine.execFault s
  | .nop => Sys2Proof.Machine.execNop s
  | .select => Sys2Proof.Machine.execSelect s
  | .start => Sys2Proof.Machine.execStart s
  | .cmdRsvd => Sys2Proof.Machine.execCmdRsvd s
  | .cancel => Sys2Proof.Machine.execCancel s
  | .reset => Sys2Proof.Machine.execReset s
  | .frameRead a => Sys2Proof.Machine.execFrameRead a s
  | .crcBuf initial buffer => Sys2Proof.Machine.execCrcBuf initial buffer s
  | .sync => Sys2Proof.Machine.execSync s
  | .process => Sys2Proof.Machine.execProcess s
  | .sampleDecode c => Sys2Proof.Machine.execSampleDecode c s
  | .rowAddr c => Sys2Proof.Machine.execRowAddr c s
  | .capture => Sys2Proof.Machine.execCapture s

end Sys2Proof.Machine
end

