-- ==== Sys2Proof/Machine/Fetch.lean ====
section
/-! DEFINITION. Fetching: which operation the block performs next, and what fetching it takes from the environment. -/

namespace Sys2Proof.Machine

/-- The word of the next operation. An input that is active is served before the sequencer's next step (log entry 7); an
input line at 0 delivers nothing, so the sequencer steps, and the operation is the one `STATE` names (R19, R68). Under
`take` a transfer that is answered is served packet by packet (R127; log entry 9). -/
def State.fetch (s : State) : InstrWord :=
  match s.ports with
  | .cmd c :: _ => .cmd c
  | .cancel line :: _ => if line = 1#1 then .cancel line else .seq s.state
  | .rst line :: _ => if line = 1#1 then .rst line else .seq s.state
  | .frameAddr a :: _ => .frameAddr a
  | .engine eop byte initial :: _ => .engine eop byte initial
  | .take :: _ =>
    match s.answers with
    | .ok b :: _ => if s.state = Code.xfer then .packet b else .seq s.state
    | _ => .seq s.state
  | _ => .seq s.state

/-- Moving past the fetched operation: its input is gone, and a packet taken whole is gone from the stream (R48). -/
def State.consume (s : State) : State :=
  { s with
    ports := s.ports.tail
    bus := match s.fetch with
      | .packet _ => s.answers.tail
      | _ => s.bus }

/-- The states and inputs for which the block takes no step: a configuration that R3 refuses, a `STATE` or `ERR` code that
is never produced (R68, U8), and engine inputs on the whole block (R33). -/
def State.stop (s : State) : Option Refusal :=
  if s.cfg.wf = false then some .badConfig
  else if 16 < s.state.toNat then some (.stateCode s.state)
  else if 3 < s.err.toNat then some (.errCode s.err)
  else
    match s.fetch with
    | .engine _ _ _ => if s.cfg.engineAlone then none else some .noEnginePort
    | _ => none

/-- `s` with a word placed where the next fetch finds it: a sequencer word in `STATE`, a packet as the answer of a transfer
in flight, any other word on its input. -/
def State.placeWord (s : State) (w : InstrWord) : State :=
  match w with
  | .seq code => { s with state := code, ports := [] }
  | .packet p => { s with state := Code.xfer, ports := [.take], bus := [.ok p] }
  | .cmd c => { s with ports := [.cmd c] }
  | .cancel line => { s with ports := [.cancel line] }
  | .rst line => { s with ports := [.rst line] }
  | .frameAddr a => { s with ports := [.frameAddr a] }
  | .engine eop byte initial => { s with ports := [.engine eop byte initial] }

end Sys2Proof.Machine
end

