-- ==== Sys2Proof/Machine/Step.lean ====
section
/-! DEFINITION. One step of the machine: fetch, decode, perform. -/

namespace Sys2Proof.Machine

/-- One abstract step (R9): the operation fetched is decoded and performed, after the fetch has moved past it. -/
def step (s : State) : Host.Outcome State Fault Refusal :=
  match s.stop with
  | some r => .refused r
  | none =>
    match decode s.cfg s.fetch with
    | .ok i => exec i s.consume
    | .error r => .refused (.rejected r)

/-- `s` with the instruction of a table word where `step` fetches its next one. -/
def State.withFetchWord (s : State) (nbits w : Nat) : State :=
  match tableWord s.cfg nbits w with
  | some word => s.placeWord word
  | none => s

end Sys2Proof.Machine
end

