-- ==== Sys2Proof/Safety.lean ====
section
/-! DEFINITION. The terms in which claims about the block are made: a packet read as a list of bytes, what makes it an
accepted one, the environments the spec admits, and the invariants of the machine. -/

namespace Sys2Proof.Machine

/-! ### A packet as a list of bytes -/

/-- The sequence number of a packet (R58). -/
def packetSeq (c : Config) (p : List Byte) : SeqNum := seqOfHeader c (headerOfBytes p)

/-- The transmitted checksum of a packet (R59). -/
def packetChecksum (c : Config) (p : List Byte) : Half := checksumField c (p.getD 2 0#8) (p.getD 3 0#8)

/-- The packet with its flag bits and its checksum field zero (R97). -/
def canonicalBytes (c : Config) (p : List Byte) : List Byte :=
  (clearFlags c (headerOfBytes p)).extractLsb' 8 8 :: (clearFlags c (headerOfBytes p)).extractLsb' 0 8 ::
    0#8 :: 0#8 :: p.drop 4

/-- The checksum recomputed over the canonicalized packet with initial value 0 (R98). -/
def recomputedChecksum (c : Config) (p : List Byte) : Half := checksum crcTable 0#16 (canonicalBytes c p)

/-- Sample `k` of a packet (R60). -/
def packetSample (p : List Byte) (k : Nat) : Half := joinBytes (p.getD (4 + 2 * k) 0#8) (p.getD (5 + 2 * k) 0#8)

/-- A packet of `PKT_LEN` bytes that carries the discard marker (R62). -/
def DiscardPacket (c : Config) (p : List Byte) : Prop :=
  p.length = c.pktLen ∧ carriesMarker c (headerOfBytes p) = true

/-- A packet of `PKT_LEN` bytes that does not (R63). -/
def DataPacket (c : Config) (p : List Byte) : Prop :=
  p.length = c.pktLen ∧ carriesMarker c (headerOfBytes p) = false

/-- An accepted packet: a DATA packet whose checksum matches and whose sequence number is a row index (glossary of
`00_scope.md`; R65, R66). -/
def AcceptedPacket (c : Config) (p : List Byte) : Prop :=
  DataPacket c p ∧ packetChecksum c p = recomputedChecksum c p ∧ (packetSeq c p).toNat < c.rows

/-! ### Environments -/

/-- Every `Ok` answer to come has exactly `PKT_LEN` bytes: the spec's environment gives no other (R87, D26). -/
def State.BusAdmitted (s : State) : Prop := ∀ b, Answer.ok b ∈ s.bus ++ s.busLoop → b.length = s.cfg.pktLen

/-- The stream is discard packets without end (R91, R128, R163). -/
def State.EndlessDiscards (s : State) : Prop :=
  s.busLoop ≠ [] ∧ ∀ a ∈ s.bus ++ s.busLoop, ∃ d, a = .ok d ∧ DiscardPacket s.cfg d

/-- The answers that bring discard packets, one each (R93). -/
def discardAnswers (ps : List (List Byte)) : List Answer := ps.map Answer.ok

/-- A stream that brings, one group after another, some discard packets and then one more packet (R93, S7). -/
def streamOf (groups : List (List (List Byte) × List Byte)) : List Answer :=
  groups.flatMap (fun g => discardAnswers g.1 ++ [Answer.ok g.2])

/-! ### Trace counts -/

/-- How many transfers a trace records (R30). -/
def transfers (t : List TraceEvent) : Nat :=
  t.countP (fun e => match e with | .xfer _ _ => true | _ => false)

/-- How many discards a trace records (R30). -/
def discards (t : List TraceEvent) : Nat :=
  t.countP (fun e => match e with | .discard _ => true | _ => false)

/-- How many row writes a trace records (R30). -/
def rowWrites (t : List TraceEvent) : Nat :=
  t.countP (fun e => match e with | .rowWrite _ _ => true | _ => false)

/-! ### Invariants -/

/-- The control registers: legal codes (R18, R22), an error class exactly in `FAULT` (R22), the chip-select line asserted
exactly from SELECT to the entry of a terminal state (R122), and the range of `ITER` (R14, R31). -/
structure ControlInv (s : State) : Prop where
  config : s.cfg.wf = true
  stateCode : s.state.toNat ≤ 16
  errCode : s.err.toNat ≤ 3
  errOnlyInFault : s.err = 0#3 ↔ s.state ≠ Code.fault
  chipSelect : s.cs = true ↔ 1 ≤ s.state.toNat ∧ s.state.toNat ≤ 13
  iterBound : s.iter ≤ s.cfg.nIter
  iterBeforeStart : s.state.toNat ≤ 1 → s.iter = 0
  iterInTurn : 3 ≤ s.state.toNat → s.state.toNat ≤ 13 → s.iter < s.cfg.nIter
  iterAtDone : s.state = Code.done → s.iter = s.cfg.nIter

/-- The memories of the whole block: the table is its constants (R16), both buffers keep their canonical form and their
address space (R35), no defined packet while a transfer is in flight (R26), a whole packet while one is processed (R29),
its header and checksum field canonicalized once CANON has run (R101), and the checksum conditions a packet has passed
(R98 to R100). -/
structure BufferInv (s : State) : Prop where
  wholeBlock : s.cfg.engineAlone = false
  tableConstants : s.table = crcTable
  pktCanonicalForm : s.pkt.wf = true
  pktSpace : s.pkt.within s.cfg.pktLen = true
  frameCanonicalForm : s.frame.wf = true
  frameSpace : s.frame.within (frameCells s.cfg) = true
  inFlight : s.state = Code.xfer → s.pkt = []
  received : 5 ≤ s.state.toNat → s.state.toNat ≤ 13 → s.pkt.full s.cfg.pktLen = true
  canonicalized : 9 ≤ s.state.toNat → s.state.toNat ≤ 13 →
    flagsOfHeader s.cfg s.header = 0#16 ∧ s.pkt.read 2 = some 0#8 ∧ s.pkt.read 3 = some 0#8
  recomputed : 10 ≤ s.state.toNat → s.state.toNat ≤ 13 →
    s.crc = checksum crcTable 0#16 (s.pktBytes 0 s.cfg.pktLen)
  matched : 11 ≤ s.state.toNat → s.state.toNat ≤ 13 → s.rxcrc = s.crc
  inRange : 12 ≤ s.state.toNat → s.state.toNat ≤ 13 → s.seq.toNat < s.cfg.rows

/-- The bookkeeping of R30 against the registers: `POS` counts the transfers answered; the row writes are the accepted
packets that `ITER` counts (R14, R118), the one not yet counted included while `STATE` is `NEXT`; a frame cell holds a
value exactly if its row was written since reset (R111, R130). -/
structure TraceInv (s : State) : Prop where
  transfersCounted : transfers s.trace = s.pos
  writesCounted : rowWrites s.trace = s.iter + (if s.state = Code.next then 1 else 0)
  nothingBeforeStart : s.state.toNat ≤ 1 → s.iter = 0
  cellsFromRows : ∀ a v, s.frame.read a = some v → ∃ k, TraceEvent.rowWrite k (a / s.cfg.cols) ∈ s.trace
  rowsInCells : ∀ k r, TraceEvent.rowWrite k r ∈ s.trace →
    r < s.cfg.rows ∧ ∀ c, c < s.cfg.cols → ∃ v, s.frame.read (cellAddress s.cfg r c) = some v

/-- The error record against the datapath of the whole block (R132, R142): what a checksum fault and a sequence fault
recorded, and why each was raised. -/
structure FaultInv (s : State) : Prop where
  wholeBlock : s.cfg.engineAlone = false
  errOnlyInFault : s.err = 0#3 ↔ s.state ≠ Code.fault
  matchedBeforeRange : s.state = Code.seqchk → s.rxcrc = s.crc
  checksumRecord : s.err = 2#3 →
    errExpected s.errinfo = s.rxcrc ∧ errComputed s.errinfo = s.crc ∧ errSeq s.errinfo = s.seq ∧ s.rxcrc ≠ s.crc
  seqRangeRecord : s.err = 3#3 →
    errExpected s.errinfo = s.rxcrc ∧ errComputed s.errinfo = s.crc ∧ errSeq s.errinfo = s.seq ∧ s.rxcrc = s.crc ∧
      s.cfg.rows ≤ s.seq.toNat

end Sys2Proof.Machine
end

