-- ==== Sys2Proof/WellFormed.lean ====
section
/-! DEFINITION. When an instruction's operands are ones the spec gives it, for a configuration. -/

namespace Sys2Proof

/-- A packet operand has `PKT_LEN` bytes (R54) and the class its instruction names (R61 to R63); a column operand is
a column of the payload, `0 <= c < COLS` (R105, R106); a read address is a cell of the frame,
`0 <= a < ROWS * COLS` (R125). Every other operand is legal at every value of its type. -/
def Instr.wf (c : Config) (i : Instr) : Bool :=
  match i with
  | .discard p => p.length == c.pktLen && carriesMarker c (headerOfBytes p)
  | .data p => p.length == c.pktLen && !carriesMarker c (headerOfBytes p)
  | .frameRead a => Nat.blt a.toNat (c.rows * c.cols)
  | .sampleDecode col => Nat.blt col c.cols
  | .rowAddr col => Nat.blt col c.cols
  | .crcHold | .crcByte _ | .crcInit _ | .crcRsvd => true
  | .idle | .selected | .opoll | .ipoll | .xfer | .classify | .seqx | .crcx | .canon | .crcrun | .compare => true
  | .seqchk | .store | .next | .done | .cancelled | .fault => true
  | .nop | .select | .start | .cmdRsvd | .cancel | .reset => true
  | .crcBuf _ _ | .sync | .process | .capture => true

end Sys2Proof
end

