-- ==== Sys2Proof/Certificates/Slice0/Obligations.lean ====
section
/-! DEFINITION. The statements for the provers. Each docstring says which rule of the spec it formalises. -/

open Sys2Proof Sys2Proof.Machine

/-! ### Encoding -/

/-- Decoding the word of an encoded operation gives that operation back, with every operand at every value the encoding
admits (any 13-bit address, any packet of its class); the operations without a word are the six composites
(`30_encoding.md` sections 3 to 6). -/
def Obligations.DecodeEncodeRoundTrip : Prop :=
  ∀ (c : Config) (i : Instr), (i.wf c = true ∨ ∃ a, i = .frameRead a) →
    (∃ w, encode i = some w ∧ decode c w = .ok i) ∨
    (encode i = none ∧ ((∃ v bs, i = .crcBuf v bs) ∨ i = .sync ∨ i = .process ∨ (∃ k, i = .sampleDecode k) ∨
      (∃ k, i = .rowAddr k) ∨ i = .capture))

/-- Words written out bit by bit from the spec's encodings decode to the operations they stand for: packets A, C, D and D' of
the small deployment and the first two of P9 in the layout L3 (`95_test_vectors.md`), and codes of `STATE`, `cmd`, `eop`,
`cancel` and `rst` (R68, R69, R73). -/
def Obligations.DecodesWordsOfTheSpec : Prop :=
  decode Config.small (.packet [0x00#8, 0x00#8, 0x79#8, 0xCE#8, 0x00#8, 0x01#8, 0x00#8, 0x02#8]) =
    .ok (.data [0x00#8, 0x00#8, 0x79#8, 0xCE#8, 0x00#8, 0x01#8, 0x00#8, 0x02#8]) ∧
  decode Config.small (.packet [0x00#8, 0x25#8, 0xEC#8, 0x6E#8, 0xFF#8, 0xFF#8, 0x80#8, 0x00#8]) =
    .ok (.data [0x00#8, 0x25#8, 0xEC#8, 0x6E#8, 0xFF#8, 0xFF#8, 0x80#8, 0x00#8]) ∧
  decode Config.small (.packet [0xFF#8, 0xFF#8, 0xFF#8, 0xFF#8, 0xFF#8, 0xFF#8, 0xFF#8, 0xFF#8]) =
    .ok (.discard [0xFF#8, 0xFF#8, 0xFF#8, 0xFF#8, 0xFF#8, 0xFF#8, 0xFF#8, 0xFF#8]) ∧
  decode Config.small (.packet [0x00#8, 0x0F#8, 0x00#8, 0x00#8, 0x00#8, 0x00#8, 0x00#8, 0x00#8]) =
    .ok (.discard [0x00#8, 0x0F#8, 0x00#8, 0x00#8, 0x00#8, 0x00#8, 0x00#8, 0x00#8]) ∧
  decode Config.small.withLayoutL3 (.packet [0x0F#8, 0xFF#8, 0x00#8, 0x00#8, 0x00#8, 0x00#8, 0x00#8, 0x00#8]) =
    .ok (.discard [0x0F#8, 0xFF#8, 0x00#8, 0x00#8, 0x00#8, 0x00#8, 0x00#8, 0x00#8]) ∧
  decode Config.small.withLayoutL3 (.packet [0x00#8, 0x00#8, 0x79#8, 0xCE#8, 0x00#8, 0x01#8, 0x00#8, 0x02#8]) =
    .ok (.data [0x00#8, 0x00#8, 0x79#8, 0xCE#8, 0x00#8, 0x01#8, 0x00#8, 0x02#8]) ∧
  decode Config.reference (.seq 0b00100#5) = .ok .xfer ∧
  decode Config.reference (.seq 0b01100#5) = .ok .store ∧
  decode Config.reference (.seq 0b10000#5) = .ok .fault ∧
  decode Config.reference (.seq 0b10001#5) = .error (.stateCode 0b10001#5) ∧
  decode Config.reference (.cmd 0b01#2) = .ok .select ∧
  decode Config.reference (.cmd 0b10#2) = .ok .start ∧
  decode Config.reference (.cancel 0b1#1) = .ok .cancel ∧
  decode Config.reference (.rst 0b1#1) = .ok .reset ∧
  decode Config.reference (.engine 0b01#2 0x31#8 0#16) = .ok (.crcByte 0x31#8) ∧
  decode Config.reference (.engine 0b10#2 0#8 0xABCD#16) = .ok (.crcInit 0xABCD#16) ∧
  decode Config.reference (.frameAddr 4799#13) = .ok (.frameRead 4799#13)

/-- A received packet has exactly one class: DISCARD if its masked header bits are all ones, DATA otherwise; nothing but
the header's masked bits takes part (R61 to R63, R56). -/
def Obligations.EveryPacketHasOneClass : Prop :=
  ∀ (c : Config) (p : List Byte), p.length = c.pktLen →
    decode c (.packet p) = .ok
      (if joinBytes (p.getD 0 0#8) (p.getD 1 0#8) &&& c.discardMask = c.discardMask then .discard p else .data p)

/-! ### One step -/

/-- A state carrying a `STATE` code of 17 to 31 or an `ERR` code of 4 to 7, or a configuration that breaks one of the first
two relations of R3, is refused (R3, R68, U8), and so are engine inputs on the whole block (the model's reading of R33,
log entry 8). -/
def Obligations.NeverProducedStatesAreRefused : Prop :=
  ∀ (s : State),
    (¬ (s.cfg.pktLen = 2 + 2 + 2 * s.cfg.cols ∧ s.cfg.rows ≤ 4096) → step s = .refused .badConfig) ∧
    ((s.cfg.pktLen = 2 + 2 + 2 * s.cfg.cols ∧ s.cfg.rows ≤ 4096) →
      (17 ≤ s.state.toNat → step s = .refused (.stateCode s.state)) ∧
      (s.state.toNat ≤ 16 → 4 ≤ s.err.toNat → step s = .refused (.errCode s.err)) ∧
      (s.state.toNat ≤ 16 → s.err.toNat ≤ 3 → s.cfg.engineAlone = false →
        (∃ e b v rest, s.ports = .engine e b v :: rest) → step s = .refused .noEnginePort))

/-- When the word fetched decodes to an operation, a step performs that operation after moving past it: the input that
carried it is gone, and a packet taken whole is gone from the stream; nothing else changes before it. The word fetched, in any
state: with no input to come, or a quiet one, the code in `STATE` (R9, R19, R68); with a command, a read address or engine
inputs to come, these (R69, R73, R125); with `cancel` or `rst` to come, that input if its line is 1, and the code in `STATE` if it
is 0 (R69, R123, R131); with `take` to come, the packet that answers the transfer in flight, and elsewhere the code in `STATE`.
So in every state the block steps from, `cmd` performs its command, `cancel = 1` CANCEL, `rst = 1` RESET and a read address
FRAME.READ. That an active input is served by a step of its own and is then gone, and that a packet may be taken whole, are the
model's choices (DESIGN CHOICE, log entries 7 and 9). -/
def Obligations.StepRunsDecodedOperation : Prop :=
  (∀ (s : State) (i : Instr),
    s.cfg.wf = true → s.state.toNat ≤ 16 → s.err.toNat ≤ 3 →
    ((∃ e b v, s.fetch = .engine e b v) → s.cfg.engineAlone = true) →
    decode s.cfg s.fetch = .ok i →
    ((∀ p, s.fetch ≠ .packet p) → step s = exec i { s with ports := s.ports.tail }) ∧
    ((∃ p, s.fetch = .packet p) → step s = exec i { s with ports := s.ports.tail, bus := s.answers.tail })) ∧
  (∀ (s : State) (rest : List PortSample),
    (s.ports = [] ∨ s.ports = .quiet :: rest → s.fetch = .seq s.state) ∧
    (∀ c, s.ports = .cmd c :: rest → s.fetch = .cmd c) ∧
    (∀ l, s.ports = .cancel l :: rest → s.fetch = if l = 1#1 then .cancel 1#1 else .seq s.state) ∧
    (∀ l, s.ports = .rst l :: rest → s.fetch = if l = 1#1 then .rst 1#1 else .seq s.state) ∧
    (∀ a, s.ports = .frameAddr a :: rest → s.fetch = .frameAddr a) ∧
    (∀ e b v, s.ports = .engine e b v :: rest → s.fetch = .engine e b v) ∧
    (s.ports = .take :: rest →
      (∀ p more, s.state = Code.xfer → s.answers = .ok p :: more → s.fetch = .packet p) ∧
      (s.state ≠ Code.xfer ∨ (∀ p more, s.answers ≠ .ok p :: more) → s.fetch = .seq s.state))) ∧
  (∀ (s : State) (rest : List PortSample), s.cfg.wf = true → s.state.toNat ≤ 16 → s.err.toNat ≤ 3 →
    (s.ports = .cmd 0b00#2 :: rest → step s = exec .nop { s with ports := rest }) ∧
    (s.ports = .cmd 0b01#2 :: rest → step s = exec .select { s with ports := rest }) ∧
    (s.ports = .cmd 0b10#2 :: rest → step s = exec .start { s with ports := rest }) ∧
    (s.ports = .cmd 0b11#2 :: rest → step s = exec .cmdRsvd { s with ports := rest }) ∧
    (s.ports = .cancel 1#1 :: rest → step s = exec .cancel { s with ports := rest }) ∧
    (s.ports = .rst 1#1 :: rest → step s = exec .reset { s with ports := rest }) ∧
    (∀ a, s.ports = .frameAddr a :: rest → step s = exec (.frameRead a) { s with ports := rest }))

/-! ### The checksum engine -/

/-- CRC.INIT, `eop = 10`, loads its 16-bit operand, and CRC.BYTE, `eop = 01`, is the source's formula over `TABLE`; nothing
but `CRC` is written (R77, R78). -/
def Obligations.EngineOperationResults : Prop :=
  (∀ (c : Config) (b : Byte) (v : Half),
    decode c (.engine 0b10#2 b v) = .ok (.crcInit v) ∧ decode c (.engine 0b01#2 b v) = .ok (.crcByte b)) ∧
  ∀ (s : State) (b : Byte) (v : Half),
    exec (.crcInit v) s = .next { s with crc := v } ∧
    exec (.crcByte b) s = .next { s with
      crc := (s.crc >>> 8) ^^^ s.table[((s.crc ^^^ b.setWidth 16).setWidth 8).toNat]'
        (BitVec.isLt ((s.crc ^^^ b.setWidth 16).setWidth 8)) }

/-- The engine's input `eop`: `00` is hold, `01` CRC.BYTE with the 8-bit data input, `10` CRC.INIT with the 16-bit data input,
`11` reserved; CRC.BUF has no code; hold, and the reserved code treated as hold, leave everything as it is (R73). -/
def Obligations.EngineCodesAndHold : Prop :=
  (∀ (c : Config) (b : Byte) (v : Half),
    decode c (.engine 0b00#2 b v) = .ok .crcHold ∧ decode c (.engine 0b01#2 b v) = .ok (.crcByte b) ∧
    decode c (.engine 0b10#2 b v) = .ok (.crcInit v) ∧ decode c (.engine 0b11#2 b v) = .ok .crcRsvd) ∧
  (∀ (v : Half) (bs : List Byte) (c : Config) (w : InstrWord), decode c w ≠ .ok (.crcBuf v bs)) ∧
  ∀ s : State, exec .crcHold s = .next s ∧ exec .crcRsvd s = .next s

/-- CRC.BUF is CRC.INIT followed by one CRC.BYTE per byte of the buffer, in ascending order (R79). -/
def Obligations.CrcBufIsInitThenBytes : Prop :=
  ∀ (s : State) (v : Half) (bs : List Byte),
    exec (.crcBuf v bs) s = bs.foldl (fun r b => andThen r (exec (.crcByte b))) (exec (.crcInit v) s) ∧
    ∃ x, exec (.crcBuf v bs) s = .next { s with crc := x }

/-- Every entry of the table is what the generation procedure gives. The procedure is the one R75 supplies from general knowledge,
and the spec marks the listing of R76 as its own derivation from it. -/
def Obligations.TableIsTheGeneratedOne : Prop :=
  ∀ i : Byte, crcTable[i.toNat]'(BitVec.isLt i) = lfsrEight (i.setWidth 16)

/-- CRC.BYTE over the table equals eight steps of the right-shifting register, for every accumulator and byte: R80,
which the spec marks as its own derivation. -/
def Obligations.CrcByteIsBitSerial : Prop :=
  ∀ (s : State) (b : Byte), s.table = crcTable →
    exec (.crcByte b) s = .next { s with crc := lfsrEight (s.crc ^^^ b.setWidth 16) }

/-- The algebraic laws of the checksum over the table: composition, the empty buffer, zeros from zero, linearity over XOR, and
sensitivity to a change of exactly one byte (R81, which the spec marks as its own derivation). -/
def Obligations.ChecksumLaws : Prop :=
  (∀ (i : Half) (a b : List Byte), checksum crcTable i (a ++ b) = checksum crcTable (checksum crcTable i a) b) ∧
  (∀ i : Half, checksum crcTable i [] = i) ∧
  (∀ n : Nat, checksum crcTable 0#16 (List.replicate n 0#8) = 0#16) ∧
  (∀ (i j : Half) (a b : List Byte), a.length = b.length →
    checksum crcTable (i ^^^ j) (List.zipWith (· ^^^ ·) a b) = checksum crcTable i a ^^^ checksum crcTable j b) ∧
  (∀ (i : Half) (a : List Byte) (k : Nat) (x : Byte), k < a.length → a.getD k 0#8 ≠ x →
    checksum crcTable i (a.set k x) ≠ checksum crcTable i a)

/-! ### The synchronizer -/

/-- IPOLL, code 3: Cancelled if `RUN = 0`, otherwise a transfer is asked for and `PKT` holds no value until it is answered
(R86, R143). That `PKT` is emptied at the request is the model's reading of R26 (log entry 14). -/
def Obligations.IpollResult : Prop :=
  (∀ c : Config, decode c (.seq 0b00011#5) = .ok .ipoll) ∧
  ∀ s : State, exec .ipoll s = .next
    (if s.run = false then { s with cs := false, state := Code.cancelled } else { s with pkt := [], state := Code.xfer })

/-- XFER, code 4: without an answer nothing happens; an `Ok` answer of `PKT_LEN` bytes fills `PKT` byte by byte, counts the
transfer and goes to CLASSIFY; an `Err` answer counts the transfer, leaves `PKT` without a value and raises TransportError with
the code in `EXPECTED[7:0]` (R87, R88). That a deployment with codes of another width than 8 bits has them in the low bits of
`EXPECTED`, zero-extended to eight, is the model's choice (log entry 23). -/
def Obligations.XferResult : Prop :=
  (∀ c : Config, decode c (.seq 0b00100#5) = .ok .xfer) ∧
  ∀ (s : State),
    (s.answers = [] → exec .xfer s = .next s) ∧
    (∀ (b : List Byte) (rest : List Answer), s.answers = .ok b :: rest → b.length = s.cfg.pktLen →
      ∃ t, exec .xfer s = .next t ∧ (∀ i, t.pkt.read i = b[i]?) ∧ t.pkt.wf = true ∧
        t = { s with
          bus := rest, pkt := t.pkt, pos := s.pos + 1, trace := s.trace ++ [TraceEvent.xfer (s.pos + 1) true],
          state := Code.classify }) ∧
    (∀ (c : TransportCode) (rest : List Answer), s.answers = .err c :: rest →
      ∃ t, exec .xfer s = .next t ∧
        (s.cfg.tcodeBits = 8 → t.errinfo.extractLsb' 28 8 = c.setWidth 8) ∧
        (∀ i, i < (s.cfg.tcodeBits : Nat) → t.errinfo.getLsbD (28 + i) = c.getLsbD i) ∧
        (∀ i, (s.cfg.tcodeBits : Nat) ≤ i → i < 8 → t.errinfo.getLsbD (28 + i) = false) ∧
        (∀ i, t.pkt.read i = none) ∧
        t = { s with
          bus := rest, pkt := t.pkt, pos := s.pos + 1, trace := s.trace ++ [TraceEvent.xfer (s.pos + 1) false],
          err := 1#3, errinfo := t.errinfo, cs := false, state := Code.fault, draws := t.draws })

/-- CLASSIFY, code 5: on the two header bytes in `PKT`, a discard is recorded and control returns to IPOLL, or control goes to SEQX;
nothing else changes but the count of free values drawn (R89). -/
def Obligations.ClassifyResult : Prop :=
  (∀ c : Config, decode c (.seq 0b00101#5) = .ok .classify) ∧
  ∀ (s : State) (b0 b1 : Byte), s.pkt.read 0 = some b0 → s.pkt.read 1 = some b1 →
    ∃ d, exec .classify s = .next
      (if joinBytes b0 b1 &&& s.cfg.discardMask = s.cfg.discardMask then
        { s with trace := s.trace ++ [TraceEvent.discard s.pos], state := Code.ipoll, draws := d }
       else { s with state := Code.seqx, draws := d })

/-- SYNC with `RUN = 1` on a stream of `N` discard packets and then one DATA packet ends in SEQX with exactly that packet in
`PKT`, `N + 1` transfers and `N` discards recorded and no row write, and nothing else of the block changed (R93, which the spec
marks as its own derivation). -/
def Obligations.SyncSkipsExactlyTheDiscards : Prop :=
  ∀ (s : State) (ds : List (List Byte)) (p : List Byte) (rest : List Answer),
    s.cfg.wf = true → s.run = true → s.bus = discardAnswers ds ++ .ok p :: rest →
    (∀ d ∈ ds, DiscardPacket s.cfg d) → DataPacket s.cfg p →
    ∃ t, exec .sync s = .next t ∧ t.state = Code.seqx ∧ (∀ i, t.pkt.read i = p[i]?) ∧
      t.pos = s.pos + (ds.length + 1) ∧ discards t.trace = discards s.trace + ds.length ∧
      transfers t.trace = transfers s.trace + (ds.length + 1) ∧ rowWrites t.trace = rowWrites s.trace ∧
      t = { s with bus := rest, pkt := t.pkt, pos := t.pos, trace := t.trace, state := Code.seqx, draws := t.draws }

/-- SYNC ends in one of the outcomes of R85: Cancelled with no transfer made if `RUN = 0`; otherwise a whole non-discard packet
in `PKT` or a TransportError fault; or else none of them is ever reached, because no answer comes (R87), and control waits in
XFER, or because the stream is discards without end (R91), and control is left in IPOLL. No datapath register, `FRAME` or
`ITER` changes (R90). That `RUN = 1` at the start excludes Cancelled, and where control stands when no outcome is reached, hold
because a composite runs with no input between its micro-operations, which is the model's choice (DESIGN CHOICE, log
entry 12). -/
def Obligations.SyncOutcomes : Prop :=
  ∀ (s : State), s.cfg.wf = true → s.BusAdmitted →
    ∃ t, exec .sync s = .next t ∧
      (s.run = false → t = { s with cs := false, state := Code.cancelled }) ∧
      (s.run = true →
        (t.state = Code.seqx ∧ t.cs = s.cs ∧ t.err = s.err ∧ t.pkt.full s.cfg.pktLen = true ∧
          t.header &&& s.cfg.discardMask ≠ s.cfg.discardMask) ∨
        (t.state = Code.fault ∧ t.err = 1#3 ∧ t.cs = false) ∨
        (t.state = Code.xfer ∧ t.answers = [] ∧ t.cs = s.cs ∧ t.err = s.err) ∨
        (t.state = Code.ipoll ∧ s.EndlessDiscards ∧ t.EndlessDiscards ∧ t.cs = s.cs ∧ t.err = s.err)) ∧
      t.crc = s.crc ∧ t.seq = s.seq ∧ t.rxcrc = s.rxcrc ∧ t.iter = s.iter ∧ t.frame = s.frame ∧ t.table = s.table ∧
      t.run = s.run ∧ t.cfg = s.cfg ∧ rowWrites t.trace = rowWrites s.trace

/-- While the transport does not answer, the block stays as it is for ever: no number of steps changes anything (R87,
R163). -/
def Obligations.UnansweredTransferHangs : Prop :=
  ∀ (s : State) (n : Nat), s.cfg.wf = true → s.err.toNat ≤ 3 → s.state = Code.xfer → s.answers = [] → s.ports = [] →
    Host.Core.run Sys2Proof.core n s = .next s

/-- Discard packets without end, with `RUN = 1`, keep the loop going without end: for every number of them the block is back
in IPOLL after three steps each, with only `PKT`, `POS`, `TRACE` and the count of free values changed (R90, R91, R163). -/
def Obligations.DiscardsNeverEndTheLoop : Prop :=
  ∀ (ds : List (List Byte)) (s : State) (rest : List Answer),
    s.cfg.wf = true → s.err.toNat ≤ 3 → s.ports = [] → s.state = Code.ipoll → s.run = true →
    s.bus = discardAnswers ds ++ rest → (∀ d ∈ ds, DiscardPacket s.cfg d) →
    ∃ t, Host.Core.run Sys2Proof.core (3 * ds.length) s = .next t ∧ t.pos = s.pos + ds.length ∧
      discards t.trace = discards s.trace + ds.length ∧
      t = { s with bus := rest, pkt := t.pkt, pos := t.pos, trace := t.trace, draws := t.draws }

/-- A stream of discard packets without end, with `RUN = 1` and no cancellation to come, is an infinite execution: every
number of steps leads to a next state of the retry loop, no terminal state is reached, each turn of three steps records one more
transfer and one more discard and no row write, and the stream is as endless as before (R91, R128, R163). An endless stream is in
the model the repetition of a list of answers (log entry 15). -/
def Obligations.EndlessDiscardsAreAnInfiniteRun : Prop :=
  ∀ s : State,
    s.cfg.wf = true → s.err.toNat ≤ 3 → s.ports = [] → s.state = Code.ipoll → s.run = true → s.EndlessDiscards →
    (∀ n : Nat, ∃ t, Host.Core.run Sys2Proof.core n s = .next t ∧
      (t.state = Code.ipoll ∨ t.state = Code.xfer ∨ t.state = Code.classify)) ∧
    (∀ n : Nat, ∃ t, Host.Core.run Sys2Proof.core (3 * n) s = .next t ∧ t.EndlessDiscards ∧ t.pos = s.pos + n ∧
      discards t.trace = discards s.trace + n ∧ transfers t.trace = transfers s.trace + n ∧
      rowWrites t.trace = rowWrites s.trace ∧
      t = { s with bus := t.bus, pkt := t.pkt, pos := t.pos, trace := t.trace, draws := t.draws })

/-! ### The validator and the reassembler -/

/-- SEQX, code 6, takes the sequence number from the header word in `PKT`, masked, shifted and cut to 12 bits; nothing else
changes but the count of free values drawn (R95). -/
def Obligations.SequenceExtractionResult : Prop :=
  (∀ c : Config, decode c (.seq 0b00110#5) = .ok .seqx) ∧
  ∀ (s : State) (b0 b1 : Byte), s.pkt.read 0 = some b0 → s.pkt.read 1 = some b1 →
    ∃ d, exec .seqx s = .next { s with
      seq := ((joinBytes b0 b1 &&& s.cfg.seqMask) >>> s.cfg.seqShift).setWidth 12, state := Code.crcx, draws := d }

/-- CRCX, code 7, takes the transmitted checksum from bytes 2 and 3 of `PKT` in the configured byte order; nothing else changes
but the count of free values drawn (R96). -/
def Obligations.ChecksumExtractionResult : Prop :=
  (∀ c : Config, decode c (.seq 0b00111#5) = .ok .crcx) ∧
  ∀ (s : State) (b2 b3 : Byte), s.pkt.read 2 = some b2 → s.pkt.read 3 = some b3 →
    ∃ d, exec .crcx s = .next { s with
      rxcrc := if s.cfg.csumBigEndian then b2 ++ b3 else b3 ++ b2, state := Code.canon, draws := d }

/-- CANON, code 8, writes the header with its flag bits cleared to bytes 0 and 1 and zero to bytes 2 and 3; every other byte of `PKT`
reads as before, its canonical form is kept, and nothing else changes but the count of free values drawn (R97). -/
def Obligations.CanonResult : Prop :=
  (∀ c : Config, decode c (.seq 0b01000#5) = .ok .canon) ∧
  ∀ (s : State) (b0 b1 : Byte), s.pkt.read 0 = some b0 → s.pkt.read 1 = some b1 →
    ∃ t, exec .canon s = .next t ∧
      t.pkt.read 0 = some ((joinBytes b0 b1 &&& ~~~s.cfg.flagMask).extractLsb' 8 8) ∧
      t.pkt.read 1 = some ((joinBytes b0 b1 &&& ~~~s.cfg.flagMask).extractLsb' 0 8) ∧
      t.pkt.read 2 = some 0x00#8 ∧ t.pkt.read 3 = some 0x00#8 ∧
      (∀ a, 4 ≤ a → t.pkt.read a = s.pkt.read a) ∧ (s.pkt.wf = true → t.pkt.wf = true) ∧
      t = { s with pkt := t.pkt, state := Code.crcrun, draws := t.draws }

/-- CRCRUN, code 9, leaves in `CRC` the checksum, with initial value 0, of all `PKT_LEN` bytes of the packet in `PKT` (R98). -/
def Obligations.CrcrunResult : Prop :=
  (∀ c : Config, decode c (.seq 0b01001#5) = .ok .crcrun) ∧
  ∀ (s : State) (p : List Byte), p.length = s.cfg.pktLen → (∀ i, i < s.cfg.pktLen → s.pkt.read i = p[i]?) →
    ∃ d, exec .crcrun s = .next { s with crc := checksum s.table 0#16 p, state := Code.compare, draws := d }

/-- COMPARE, code 10, goes on exactly if the checksums are equal; otherwise it raises ChecksumMismatch, whose record holds the
transmitted checksum, the recomputed one and the sequence number (R99, R141). -/
def Obligations.CompareResult : Prop :=
  (∀ c : Config, decode c (.seq 0b01010#5) = .ok .compare) ∧
  ∀ s : State, exec .compare s = .next
    (if s.rxcrc = s.crc then { s with state := Code.seqchk }
     else { s with err := 2#3, errinfo := s.rxcrc ++ s.crc ++ s.seq, cs := false, state := Code.fault })

/-- SEQCHK, code 11, goes on exactly if the sequence number is a row index; otherwise it raises SeqOutOfRange (R100, R135, R141). -/
def Obligations.SeqchkResult : Prop :=
  (∀ c : Config, decode c (.seq 0b01011#5) = .ok .seqchk) ∧
  ∀ s : State, exec .seqchk s = .next
    (if s.seq.toNat < s.cfg.rows then { s with state := Code.store }
     else { s with err := 3#3, errinfo := s.rxcrc ++ s.crc ++ s.seq, cs := false, state := Code.fault })

/-- STORE, code 12, with `SEQ` a row index (which SEQCHK guarantees, R110) writes the samples of the packet in `PKT` to the
`COLS` cells of row `SEQ`, and to no other cell; it records the write and goes to NEXT; nothing else changes but the count of free
values drawn (R107, R108). -/
def Obligations.StoreResult : Prop :=
  (∀ c : Config, decode c (.seq 0b01100#5) = .ok .store) ∧
  (∀ (s : State) (p : List Byte), s.cfg.wf = true → s.seq.toNat < s.cfg.rows → p.length = s.cfg.pktLen →
    (∀ i, i < s.cfg.pktLen → s.pkt.read i = p[i]?) →
    ∃ t, exec .store s = .next t ∧
      (∀ c, c < s.cfg.cols →
        t.frame.read (s.seq.toNat * s.cfg.cols + c) = some (p.getD (4 + 2 * c) 0#8 ++ p.getD (5 + 2 * c) 0#8)) ∧
      (∀ a, ¬ (s.seq.toNat * s.cfg.cols ≤ a ∧ a < s.seq.toNat * s.cfg.cols + s.cfg.cols) →
        t.frame.read a = s.frame.read a) ∧
      t = { s with
        frame := t.frame, trace := s.trace ++ [TraceEvent.rowWrite s.pos s.seq.toNat], state := Code.next,
        draws := t.draws })

/-- SAMPLE.DECODE of a payload column joins its two bytes, the first the more significant (R105); ROW.ADDR is
`SEQ * COLS + c` (R106). That the results stand on output fields of the model's own, and that ROW.ADDR answers the uncut number
also for `SEQ >= ROWS` or `c >= COLS`, of which R106 does not speak, are the model's choices (DESIGN CHOICE, log entry 11). -/
def Obligations.SampleAndRowAddressResults : Prop :=
  (∀ (s : State) (c : Nat) (b b' : Byte), c < s.cfg.cols →
    s.pkt.read (4 + 2 * c) = some b → s.pkt.read (5 + 2 * c) = some b' →
    ∃ d, exec (.sampleDecode c) s = .next { s with sampleOut := b ++ b', draws := d }) ∧
  (∀ (s : State) (c : Nat), exec (.rowAddr c) s = .next { s with rowAddrOut := s.seq.toNat * s.cfg.cols + c })

/-- The model's stops at addresses and answers that the spec says do not occur (log entry 13): SAMPLE.DECODE of a column outside
the payload names bytes outside `PKT` (R36) and STORE with `SEQ >= ROWS` names cells outside `FRAME` (R41, R110), both a fault;
an `Ok` answer, or a packet taken whole, of another length than `PKT_LEN` is refused (R87, D26). -/
def Obligations.StopsOutsideTheAddressSpaces : Prop :=
  ∀ s : State,
    (∀ c, s.cfg.cols ≤ c → exec (.sampleDecode c) s = .fault (.packetAddress (4 + 2 * c))) ∧
    (s.cfg.rows ≤ s.seq.toNat → exec .store s = .fault (.frameAddress (s.seq.toNat * s.cfg.cols))) ∧
    (∀ (b : List Byte) (rest : List Answer), s.answers = .ok b :: rest → b.length ≠ s.cfg.pktLen →
      exec .xfer s = .refused (.answerLength b.length)) ∧
    (∀ p : List Byte, s.state = Code.xfer → p.length ≠ s.cfg.pktLen →
      exec (.discard p) s = .refused (.answerLength p.length) ∧ exec (.data p) s = .refused (.answerLength p.length))

/-- The operations that read `PKT` complete even where `PKT` holds no value: what they read is then free, and control goes
on as always (the model's reading of R29, log entry 5). -/
def Obligations.UndefinedPacketBytesDoNotStop : Prop :=
  ∀ s : State,
    (∃ t, exec .classify s = .next t ∧ (t.state = Code.ipoll ∨ t.state = Code.seqx)) ∧
    (∃ q d, exec .seqx s = .next { s with seq := q, state := Code.crcx, draws := d }) ∧
    (∃ x d, exec .crcx s = .next { s with rxcrc := x, state := Code.canon, draws := d }) ∧
    (∃ m d, exec .canon s = .next { s with pkt := m, state := Code.crcrun, draws := d }) ∧
    (∃ x d, exec .crcrun s = .next { s with crc := x, state := Code.compare, draws := d }) ∧
    (s.seq.toNat < s.cfg.rows → ∃ m tr d, exec .store s = .next
      { s with frame := m, trace := tr, state := Code.next, draws := d }) ∧
    (∀ c, c < s.cfg.cols → ∃ x d, exec (.sampleDecode c) s = .next { s with sampleOut := x, draws := d })

/-- A second store to the same row leaves the frame as if the first had not happened: the last write wins (R109). -/
def Obligations.SecondStoreOverwritesTheRow : Prop :=
  ∀ (s u t t' : State), s.frame.wf = true → exec .store s = .next t → u.cfg = s.cfg → u.seq = s.seq →
    exec .store { u with frame := t.frame } = .next t' →
    ∃ t'', exec .store { u with frame := s.frame } = .next t'' ∧ t'.frame = t''.frame

/-- PROCESS completes on every packet `p` of `PKT_LEN` bytes in `PKT`, in one of three outcomes decided by the packet alone:
ChecksumMismatch if the transmitted and the recomputed checksum differ, else SeqOutOfRange if the sequence number is no row
index, else the row is stored and `ITER` advances. In each, `SEQ`, `RXCRC`, `CRC` hold the packet's values and `PKT` its
canonicalized form; on a fault neither `FRAME` nor `ITER` changes (R94, R101, R102, R139). -/
def Obligations.ProcessOutcomes : Prop :=
  ∀ (s : State) (p : List Byte), s.cfg.wf = true → s.table = crcTable → p.length = s.cfg.pktLen →
    (∀ i, s.pkt.read i = p[i]?) →
    ∃ t, exec .process s = .next t ∧
      t.seq = packetSeq s.cfg p ∧ t.rxcrc = packetChecksum s.cfg p ∧ t.crc = recomputedChecksum s.cfg p ∧
      (∀ i, t.pkt.read i = (canonicalBytes s.cfg p)[i]?) ∧
      (if packetChecksum s.cfg p ≠ recomputedChecksum s.cfg p then
        t = { s with
          seq := t.seq, rxcrc := t.rxcrc, crc := t.crc, pkt := t.pkt, draws := t.draws,
          err := 2#3, errinfo := t.rxcrc ++ t.crc ++ t.seq, cs := false, state := Code.fault }
       else if s.cfg.rows ≤ (packetSeq s.cfg p).toNat then
        t = { s with
          seq := t.seq, rxcrc := t.rxcrc, crc := t.crc, pkt := t.pkt, draws := t.draws,
          err := 3#3, errinfo := t.rxcrc ++ t.crc ++ t.seq, cs := false, state := Code.fault }
       else
        (∀ c, c < s.cfg.cols → t.frame.read (t.seq.toNat * s.cfg.cols + c) = some (packetSample p c)) ∧
        (∀ a, ¬ (t.seq.toNat * s.cfg.cols ≤ a ∧ a < t.seq.toNat * s.cfg.cols + s.cfg.cols) →
          t.frame.read a = s.frame.read a) ∧
        t = { s with
          seq := t.seq, rxcrc := t.rxcrc, crc := t.crc, pkt := t.pkt, draws := t.draws, frame := t.frame,
          trace := s.trace ++ [TraceEvent.rowWrite s.pos t.seq.toNat], iter := s.iter + 1, state := Code.opoll })

/-- The outcome of PROCESS does not depend on the received flag bits: two states that differ only in them, in a layout whose
sequence bits and flag bits are disjoint, have the same outcome (R103, which the spec marks as its own derivation). -/
def Obligations.ProcessIgnoresFlagBits : Prop :=
  ∀ (s : State) (p p' : List Byte), s.cfg.wf = true → s.cfg.seqMask &&& s.cfg.flagMask = 0#16 →
    p.length = s.cfg.pktLen → p'.length = s.cfg.pktLen →
    clearFlags s.cfg (headerOfBytes p) = clearFlags s.cfg (headerOfBytes p') → p.drop 2 = p'.drop 2 →
    exec .process { s with pkt := Memory.ofList 0 p } = exec .process { s with pkt := Memory.ofList 0 p' } ∧
    ∃ t, exec .process { s with pkt := Memory.ofList 0 p } = .next t

/-! ### Packets taken whole -/

/-- DISCARD: answering the transfer in flight, a discard packet changes `PKT`, `POS`, `TRACE` and returns control to IPOLL,
and nothing else but the count of free values drawn (R62, R90). That the reception is part of the operation, and that with no
transfer in flight nothing takes the packet and nothing changes, are the model's choices (DESIGN CHOICE, log entry 9). -/
def Obligations.DiscardPacketResult : Prop :=
  ∀ (s : State) (p : List Byte), DiscardPacket s.cfg p →
    (s.state = Code.xfer → ∃ t, exec (.discard p) s = .next t ∧ (∀ i, t.pkt.read i = p[i]?) ∧
      t = { s with
        pkt := t.pkt, pos := s.pos + 1,
        trace := s.trace ++ [TraceEvent.xfer (s.pos + 1) true, TraceEvent.discard (s.pos + 1)],
        state := Code.ipoll, draws := t.draws }) ∧
    (s.state ≠ Code.xfer → exec (.discard p) s = .next s)

/-- DATA: answering the transfer in flight, a DATA packet is received and PROCESS runs on it, and it always completes (R63, R87,
R94). That the reception is part of the operation, and that with no transfer in flight nothing takes the packet and nothing
changes, are the model's choices (DESIGN CHOICE, log entry 9). -/
def Obligations.DataPacketIsReceptionThenProcess : Prop :=
  ∀ (s : State) (p : List Byte), DataPacket s.cfg p →
    (s.state = Code.xfer → ∃ m d t, (∀ i, Memory.read m i = p[i]?) ∧
      exec (.data p) s = exec .process { s with
        pkt := m, pos := s.pos + 1, trace := s.trace ++ [TraceEvent.xfer (s.pos + 1) true], state := Code.seqx,
        draws := d } ∧
      exec (.data p) s = .next t) ∧
    (s.state ≠ Code.xfer → exec (.data p) s = .next s)

/-- An accepted packet answering the transfer in flight is stored: its samples stand in row `SEQ` and every other cell reads as
before, `ITER` advances by one, the transfer and the row write are recorded, the datapath registers hold the packet's values,
`PKT` its canonicalized form, and control returns to OPOLL; nothing else changes but the count of free values drawn (R63, R94,
R101, R107, R118). That the reception is part of the operation is the model's choice (log entry 9). -/
def Obligations.AcceptedPacketIsStored : Prop :=
  ∀ (s : State) (p : List Byte), s.cfg.wf = true → s.table = crcTable → s.state = Code.xfer → AcceptedPacket s.cfg p →
    ∃ t, exec (.data p) s = .next t ∧
      t.seq = packetSeq s.cfg p ∧ t.rxcrc = packetChecksum s.cfg p ∧ t.crc = packetChecksum s.cfg p ∧
      (∀ i, t.pkt.read i = (canonicalBytes s.cfg p)[i]?) ∧
      (∀ c, c < s.cfg.cols → t.frame.read (t.seq.toNat * s.cfg.cols + c) = some (packetSample p c)) ∧
      (∀ a, ¬ (t.seq.toNat * s.cfg.cols ≤ a ∧ a < t.seq.toNat * s.cfg.cols + s.cfg.cols) →
        t.frame.read a = s.frame.read a) ∧
      t = { s with
        seq := t.seq, rxcrc := t.rxcrc, crc := t.crc, pkt := t.pkt, frame := t.frame, draws := t.draws, pos := s.pos + 1,
        trace := s.trace ++ [TraceEvent.xfer (s.pos + 1) true, TraceEvent.rowWrite (s.pos + 1) t.seq.toNat],
        iter := s.iter + 1, state := Code.opoll }

/-- Corruption of one byte of an accepted packet (R104, which the spec marks as its own derivation), in a layout whose sequence
bits and flag bits are disjoint.
(a) A payload byte, or a header byte so that the canonicalized header changes and no marker appears: always
ChecksumMismatch, with nothing stored and `ITER` kept. (b) A byte of the checksum field: the same. (c) Header bits of which
only flag bits change: a discard packet if the marker appears, and otherwise processed exactly as the packet itself. -/
def Obligations.CorruptedPacketIsRejected : Prop :=
  ∀ (s : State) (p : List Byte) (k : Nat) (x : Byte), s.state = Code.xfer → s.cfg.wf = true → s.table = crcTable →
    s.cfg.seqMask &&& s.cfg.flagMask = 0#16 → AcceptedPacket s.cfg p → k < p.length → p.getD k 0#8 ≠ x →
    (carriesMarker s.cfg (headerOfBytes (p.set k x)) = true →
      k < 2 ∧ decode s.cfg (.packet (p.set k x)) = .ok (.discard (p.set k x))) ∧
    (carriesMarker s.cfg (headerOfBytes (p.set k x)) = false →
      decode s.cfg (.packet (p.set k x)) = .ok (.data (p.set k x)) ∧
      (2 ≤ k ∨ clearFlags s.cfg (headerOfBytes (p.set k x)) ≠ clearFlags s.cfg (headerOfBytes p) →
        ∃ t, exec (.data (p.set k x)) s = .next t ∧ t.state = Code.fault ∧ t.err = 2#3 ∧
          errExpected t.errinfo ≠ errComputed t.errinfo ∧ t.cs = false ∧ t.frame = s.frame ∧ t.iter = s.iter) ∧
      (k < 2 → clearFlags s.cfg (headerOfBytes (p.set k x)) = clearFlags s.cfg (headerOfBytes p) →
        exec (.data (p.set k x)) s = exec (.data p) s))

/-- The all-zero packet of a bus that returns zeros is an accepted packet for row 0, in every configuration with a row and a
discard marker of at least one bit (R67, R165; the spec marks R67 as its own derivation). -/
def Obligations.QuietBusPacketIsAccepted : Prop :=
  ∀ c : Config, c.wf = true → 0 < c.rows → c.discardMask ≠ 0#16 →
    AcceptedPacket c (List.replicate c.pktLen 0#8) ∧ packetSeq c (List.replicate c.pktLen 0#8) = 0#12

/-! ### The acquisition loop -/

/-- OPOLL, code 2, tests the count first, then the Running Flag; NEXT, code 13, advances the count (R117, R118). -/
def Obligations.OuterLoopResults : Prop :=
  (∀ c : Config, decode c (.seq 0b00010#5) = .ok .opoll ∧ decode c (.seq 0b01101#5) = .ok .next) ∧
  ∀ s : State,
    exec .opoll s = .next
      (if s.iter = s.cfg.nIter then { s with cs := false, state := Code.done }
       else if s.run = false then { s with cs := false, state := Code.cancelled }
       else { s with state := Code.ipoll }) ∧
    exec .next s = .next { s with iter := s.iter + 1, state := Code.opoll }

/-- The waiting states and the terminal states have no effect of their own (R113, R114). -/
def Obligations.WaitingAndTerminalStatesHaveNoEffect : Prop :=
  ∀ s : State, exec .idle s = .next s ∧ exec .selected s = .next s ∧ exec .done s = .next s ∧
    exec .cancelled s = .next s ∧ exec .fault s = .next s

/-- CAPTURE ends in one of the three classes of R112, a frame, Cancelled or an error, with Cancelled and no transfer made if
`RUN = 0` (and there is an iteration to make); or it never ends, because no answer comes (R87), and control waits in XFER, or
because the stream is discards without end (R91), and control is left in IPOLL. R112 has the capture entered by START with the
line asserted; that the operation performs SELECT and START itself, from IDLE or SELECTED, and that elsewhere no capture starts
and nothing changes; that it is Cancelled only if `RUN = 0` at its start, no input arriving in the middle; and where control
stands when it never ends: these are the model's choices (DESIGN CHOICE, log entry 12). -/
def Obligations.CaptureOutcomes : Prop :=
  ∀ s : State, s.cfg.wf = true → s.BusAdmitted →
    (s.state = Code.idle ∨ s.state = Code.selected →
      ∃ t, exec .capture s = .next t ∧
        ((t.state = Code.done ∧ t.iter = s.cfg.nIter ∧ t.cs = false ∧ t.err = s.err) ∨
          (t.state = Code.cancelled ∧ s.run = false ∧ t.cs = false ∧ t.err = s.err) ∨
          (t.state = Code.fault ∧ (t.err = 1#3 ∨ t.err = 2#3 ∨ t.err = 3#3) ∧ t.cs = false) ∨
          (t.state = Code.xfer ∧ t.answers = []) ∨
          (t.state = Code.ipoll ∧ t.run = true ∧ t.EndlessDiscards)) ∧
        (s.run = false → 0 < s.cfg.nIter → t.state = Code.cancelled ∧ t.iter = 0 ∧ t.pos = s.pos ∧ t.frame = s.frame)) ∧
    (s.state ≠ Code.idle → s.state ≠ Code.selected → exec .capture s = .next s)

/-- A capture over a stream that brings `N_ITER` accepted packets, each after any number of discards, ends in DONE with
`ITER = N_ITER` and the stream used exactly so far; every row addressed holds the payload of the LAST packet that addressed
it, and every other cell reads as before (R112, R129, R130; the end-to-end scenario S7 is an instance). R112 has the capture
entered by START with the line asserted; that the operation performs SELECT and START itself, from IDLE or SELECTED, and that
`RUN = 1` at its start is enough, because no input arrives in the middle, are the model's choices (DESIGN CHOICE, log entry 12). -/
def Obligations.CaptureOfAcceptedStreamEndsInDone : Prop :=
  ∀ (s : State) (groups : List (List (List Byte) × List Byte)) (rest : List Answer),
    s.cfg.wf = true → s.table = crcTable → s.run = true → s.state = Code.idle ∨ s.state = Code.selected →
    s.bus = streamOf groups ++ rest → groups.length = s.cfg.nIter →
    (∀ g ∈ groups, (∀ d ∈ g.1, DiscardPacket s.cfg d) ∧ AcceptedPacket s.cfg g.2) →
    ∃ t, exec .capture s = .next t ∧ t.state = Code.done ∧ t.frameValid = true ∧ t.iter = s.cfg.nIter ∧ t.cs = false ∧
      t.err = s.err ∧ t.run = true ∧ t.bus = rest ∧ t.cfg = s.cfg ∧ t.table = s.table ∧
      t.pos = s.pos + (groups.map (fun g => g.1.length + 1)).sum ∧
      (∀ (pre post : List (List (List Byte) × List Byte)) (g : List (List Byte) × List Byte),
        groups = pre ++ g :: post → (∀ g' ∈ post, packetSeq s.cfg g'.2 ≠ packetSeq s.cfg g.2) →
        ∀ c, c < s.cfg.cols →
          t.frame.read ((packetSeq s.cfg g.2).toNat * s.cfg.cols + c) = some (packetSample g.2 c)) ∧
      (∀ a, (∀ g ∈ groups, ¬ ((packetSeq s.cfg g.2).toNat * s.cfg.cols ≤ a ∧
          a < (packetSeq s.cfg g.2).toNat * s.cfg.cols + s.cfg.cols)) → t.frame.read a = s.frame.read a)

/-! ### Refinement: coarse operations are runs of fine ones -/

/-- Taking an answered packet whole in one step leaves the block exactly as ten steps of the sequencer leave it, for every
DATA packet, accepted or not, and as two steps for every discard packet: the fusion R127 allows, a rule the spec marks as its
own derivation. The input `take` that asks for it is the model's own (log entry 9). -/
def Obligations.FusedPacketIsARunOfMicroOperations : Prop :=
  ∀ (s : State) (p : List Byte) (rest : List Answer),
    s.cfg.wf = true → s.err.toNat ≤ 3 → s.state = Code.xfer → s.ports = [] → s.answers = .ok p :: rest →
    (DataPacket s.cfg p →
      step { s with ports := [.take] } = Host.Core.run Sys2Proof.core 10 s ∧
      ∃ t, step { s with ports := [.take] } = .next t) ∧
    (DiscardPacket s.cfg p →
      step { s with ports := [.take] } = Host.Core.run Sys2Proof.core 2 s ∧
      ∃ t, step { s with ports := [.take] } = .next t)

/-- SYNC performed in IPOLL, and PROCESS performed in SEQX, end where some number of steps of the sequencer with quiet
inputs ends (R85, R94, R114). That a composite has no input between its micro-operations is the model's choice (log entry 12). -/
def Obligations.SyncAndProcessAreRuns : Prop :=
  ∀ (s t : State), s.cfg.wf = true → s.err.toNat ≤ 3 → s.ports = [] →
    (s.state = Code.ipoll → exec .sync s = .next t → ∃ n, Host.Core.run Sys2Proof.core n s = .next t) ∧
    (s.state = Code.seqx → exec .process s = .next t → ∃ n, Host.Core.run Sys2Proof.core n s = .next t)

/-- CAPTURE performed in IDLE ends where some number of steps ends after the host gives SELECT and then START (R112, R114,
R158). That the operation performs both commands itself is the model's choice (log entry 12), and so is that each command takes a
step of its own (log entry 7). -/
def Obligations.CaptureIsARunAfterSelectAndStart : Prop :=
  ∀ (s t : State), s.cfg.wf = true → s.err.toNat ≤ 3 → s.ports = [] → s.state = Code.idle →
    exec .capture s = .next t →
    ∃ n, Host.Core.run Sys2Proof.core n { s with ports := [.cmd 0b01#2, .cmd 0b10#2] } = .next t

/-! ### The host's inputs -/

/-- The commands, by their codes and their effects: SELECT is accepted only in IDLE, START only in SELECTED, and a command a
state does not accept, NOP and the reserved code change nothing (R69, R115, R116, R126). -/
def Obligations.HostCommandResults : Prop :=
  (∀ c : Config, decode c (.cmd 0b00#2) = .ok .nop ∧ decode c (.cmd 0b01#2) = .ok .select ∧
    decode c (.cmd 0b10#2) = .ok .start ∧ decode c (.cmd 0b11#2) = .ok .cmdRsvd) ∧
  ∀ s : State,
    exec .select s = .next (if s.state = Code.idle then { s with cs := true, state := Code.selected } else s) ∧
    exec .start s = .next (if s.state = Code.selected then { s with iter := 0, state := Code.opoll } else s) ∧
    exec .nop s = .next s ∧
    exec .cmdRsvd s = .next s

/-- CANCEL, `cancel = 1`, clears `RUN` and writes nothing else, in any state; delivered again it changes nothing (R123, R137). -/
def Obligations.CancelOnlyClearsRun : Prop :=
  (∀ c : Config, decode c (.cancel 0b1#1) = .ok .cancel) ∧
  ∀ s : State, exec .cancel s = .next { s with run := false } ∧
    andThen (exec .cancel s) (exec .cancel) = exec .cancel s

/-- Reset, by `rst = 1` in any state and at power-on, leaves `STATE = IDLE`, `RUN = 1`, `CS = 0`, `ITER = 0`, `ERR = 0`,
`TABLE` its constants, no value in `PKT` or `FRAME`, `POS = 0` and `TRACE` empty (R32, R153). By `rst` a transfer in flight
is abandoned and its answer dropped (R155); that this answer is the next of the stream, and that the configuration and the
inputs to come stay, is the model's reading (log entry 21). -/
def Obligations.ResetResult : Prop :=
  (∀ s : State, ∃ t, exec .reset s = .next t ∧
    t.state = Code.idle ∧ t.run = true ∧ t.cs = false ∧ t.iter = 0 ∧ t.err = 0#3 ∧ t.table = crcTable ∧
    (∀ a, t.pkt.read a = none) ∧ (∀ a, t.frame.read a = none) ∧ t.pos = 0 ∧ t.trace = [] ∧
    t.cfg = s.cfg ∧ t.ports = s.ports ∧
    t.busLoop = s.busLoop ∧ t.bus = (if s.state = Code.xfer then s.answers.tail else s.bus)) ∧
  (State.reset.state = Code.idle ∧ State.reset.run = true ∧ State.reset.cs = false ∧ State.reset.iter = 0 ∧
    State.reset.err = 0#3 ∧ State.reset.table = crcTable ∧ (∀ a, State.reset.pkt.read a = none) ∧
    (∀ a, State.reset.frame.read a = none) ∧ State.reset.pos = 0 ∧ State.reset.trace = [])

/-- FRAME.READ: refused while `busy = 1` and at an address of `ROWS * COLS` or more; otherwise the host gets the value the
cell holds, and nothing else changes (R125). That the read of a cell without a value completes with some value, of which nothing
is said (U4 allows that or a refusal), and that what the data output presents stands in `readData`, are the model's choices
(DESIGN CHOICE, log entry 4). -/
def Obligations.FrameReadResult : Prop :=
  ∀ (s : State) (a : BitVec 13),
    (2 ≤ s.state.toNat → s.state.toNat ≤ 13 → exec (.frameRead a) s = .refused .frameBusy) ∧
    (¬ (2 ≤ s.state.toNat ∧ s.state.toNat ≤ 13) →
      (s.cfg.rows * s.cfg.cols ≤ a.toNat → exec (.frameRead a) s = .refused (.frameReadAddress a.toNat)) ∧
      (a.toNat < s.cfg.rows * s.cfg.cols →
        (∀ v, s.frame.read a.toNat = some v → exec (.frameRead a) s = .next { s with readData := v }) ∧
        (s.frame.read a.toNat = none →
          ∃ v d, exec (.frameRead a) s = .next { s with readData := v, draws := d })))

/-- The status outputs are functions of `STATE` and `ITER`: `frame_valid` exactly in DONE, `busy` exactly in codes 2 to 13,
`PHASE` only while busy, SYNCING at `ITER = 0` and ACCUMULATING from 1 on (R24). -/
def Obligations.StatusOutputs : Prop :=
  ∀ s : State,
    (s.frameValid = true ↔ s.state = Code.done) ∧
    (s.busy = true ↔ 2 ≤ s.state.toNat ∧ s.state.toNat ≤ 13) ∧
    (s.busy = false → s.phase = none) ∧
    (s.busy = true → s.iter = 0 → s.phase = some .syncing) ∧
    (s.busy = true → 1 ≤ s.iter → s.phase = some .accumulating)

/-! ### Invariants -/

/-- Every step keeps the control invariant: legal codes, an error class exactly in FAULT, the chip-select line asserted
exactly from SELECT to a terminal state, `ITER` in its range and equal to `N_ITER` in DONE (R18, R22, R31, R122). -/
def Obligations.StepKeepsControlInvariant : Prop :=
  ∀ s t : State, ControlInv s → step s = .next t → ControlInv t

/-- Every step keeps the memory invariant of the whole block: constant table, canonical buffers inside their address spaces,
a whole and canonicalized packet while it is processed, and a packet in STORE whose checksum matched and whose sequence
number is a row index (R16, R26, R29, R35, R99 to R101). -/
def Obligations.StepKeepsBufferInvariant : Prop :=
  ∀ s t : State, BufferInv s → step s = .next t → BufferInv t

/-- Every step keeps the bookkeeping invariant: `POS` counts the transfers, `ITER` the rows written, and a frame cell holds a
value exactly if its row was written since reset (R14, R30, R111, R130). -/
def Obligations.StepKeepsTraceInvariant : Prop :=
  ∀ s t : State, TraceInv s → step s = .next t → TraceInv t

/-- Every step keeps the error-record invariant of the whole block: what `ERRINFO` holds after a checksum fault and after a
sequence fault is what the datapath holds, and the cause is there (R132, R142). -/
def Obligations.StepKeepsFaultRecordInvariant : Prop :=
  ∀ s t : State, FaultInv s → step s = .next t → FaultInv t

/-- The four invariants hold right after reset. -/
def Obligations.ResetMeetsTheInvariants : Prop :=
  ControlInv State.reset ∧ BufferInv State.reset ∧ TraceInv State.reset ∧ FaultInv State.reset

/-! ### Rules of the whole machine -/

/-- In a state that meets the control and the memory invariant, and where the environment gives only admitted answers, a step
never stops with a fault, and is refused only for an engine input on the whole block or a FRAME.READ that R125 refuses. -/
def Obligations.BlockStopsOnlyWhereTheSpecRefuses : Prop :=
  ∀ s : State, ControlInv s → BufferInv s → s.BusAdmitted →
    (∀ e b v, s.fetch ≠ .engine e b v) →
    (∀ a, s.fetch = .frameAddr a →
      ¬ (2 ≤ s.state.toNat ∧ s.state.toNat ≤ 13) ∧ a.toNat < s.cfg.rows * s.cfg.cols) →
    ∃ t, step s = .next t ∧ t.BusAdmitted

/-- No step but a reset leaves a terminal state, and no such step changes the frame, the packet, the count, the error record,
the chip-select line, the stream or the bookkeeping (R113, R114, R119 to R121, R144). -/
def Obligations.TerminalStatesAreAbsorbing : Prop :=
  ∀ s t : State, s.state = Code.done ∨ s.state = Code.cancelled ∨ s.state = Code.fault → s.fetch ≠ .rst 1#1 →
    step s = .next t →
    t.state = s.state ∧ t.frame = s.frame ∧ t.pkt = s.pkt ∧ t.iter = s.iter ∧ t.err = s.err ∧ t.errinfo = s.errinfo ∧
      t.cs = s.cs ∧ t.seq = s.seq ∧ t.rxcrc = s.rxcrc ∧ t.bus = s.bus ∧ t.pos = s.pos ∧ t.trace = s.trace

/-- Only a cancellation request clears `RUN` and only a reset sets it (R20, R52, R138). -/
def Obligations.OnlyCancelAndResetWriteRun : Prop :=
  ∀ s t : State, step s = .next t →
    (s.run = true → t.run = false → s.fetch = .cancel 1#1) ∧
    (s.run = false → t.run = true → s.fetch = .rst 1#1)

/-- Only STORE writes the frame: a step that is no reset, is not in STORE and takes no packet whole leaves every cell as it
was; so no host input writes it (R17, R33, R41). -/
def Obligations.OnlyStoreWritesTheFrame : Prop :=
  ∀ s t : State, step s = .next t → s.fetch ≠ .rst 1#1 → s.fetch ≠ .seq Code.store → (∀ p, s.fetch ≠ .packet p) →
    t.frame = s.frame

/-- Faults are precise: a step that enters FAULT has a fault class recorded and the line deasserted, has stored nothing and
not advanced `ITER`, and was a transfer, a comparison, a range check or a packet taken whole (R121, R141, R142). -/
def Obligations.FaultEntryIsPrecise : Prop :=
  ∀ s t : State, step s = .next t → s.state ≠ Code.fault → t.state = Code.fault →
    (t.err = 1#3 ∨ t.err = 2#3 ∨ t.err = 3#3) ∧ t.cs = false ∧ t.frame = s.frame ∧ t.iter = s.iter ∧ t.run = s.run ∧
      (s.fetch = .seq Code.xfer ∨ s.fetch = .seq Code.compare ∨ s.fetch = .seq Code.seqchk ∨
        ∃ p, s.fetch = .packet p)

/-- A cancellation commutes with every working step that does not poll: delivered before or after, the result is the same
(R127, R138). -/
def Obligations.CancellationCommutesWithWorkingSteps : Prop :=
  ∀ (s : State) (i : Instr),
    i ∈ [.xfer, .classify, .seqx, .crcx, .canon, .crcrun, .compare, .seqchk, .store, .next, .process] →
    andThen (exec .cancel s) (exec i) = andThen (exec i s) (exec .cancel)
end

