-- ==== Sys2Proof/Laws/Checksum.lean ====
section
/-! SUPPORT. The laws of the checksum's folding and of the right-shifting register behind the table. -/

namespace Sys2Proof.Machine

/-! ### Folding -/

@[simp] theorem checksum_nil (table : Vector Half 256) (i : Half) : checksum table i [] = i := rfl

@[simp] theorem checksum_cons (table : Vector Half 256) (i : Half) (b : Byte) (bs : List Byte) :
    checksum table i (b :: bs) = checksum table (crcUpdate table i b) bs := rfl

/-! ### The register -/

/-- A step of the register is linear over XOR. -/
theorem lfsrStep_xor (a b : Half) : lfsrStep (a ^^^ b) = lfsrStep a ^^^ lfsrStep b := by
  unfold lfsrStep
  rw [BitVec.ushiftRight_xor_distrib, BitVec.getLsbD_xor]
  cases a.getLsbD 0 <;> cases b.getLsbD 0 <;> simp
  · rw [BitVec.xor_assoc]
  · ac_rfl
  · rw [show ∀ x y k : Half, x ^^^ k ^^^ (y ^^^ k) = x ^^^ y ^^^ (k ^^^ k) by intros; ac_rfl]
    simp

theorem lfsrEight_xor (a b : Half) : lfsrEight (a ^^^ b) = lfsrEight a ^^^ lfsrEight b := by
  simp only [lfsrEight, lfsrStep_xor]

/-- Only zero steps to zero: the polynomial's top bit is set, so a feedback step leaves bit 15 set. -/
theorem lfsrStep_eq_zero {x : Half} (h : lfsrStep x = 0#16) : x = 0#16 := by
  unfold lfsrStep at h
  apply BitVec.eq_of_getLsbD_eq
  intro i hi
  split at h
  · simpa using congrArg (fun v => v.getLsbD 15) h
  · rename_i h0
    rcases Nat.eq_zero_or_pos i with h1 | h1
    · subst h1
      simpa using h0
    · have e := congrArg (fun v => v.getLsbD (i - 1)) h
      simp only [BitVec.getLsbD_ushiftRight] at e
      rw [show 1 + (i - 1) = i by omega] at e
      simpa using e

/-- Eight steps of the register lose nothing. -/
theorem lfsrEight_inj {a b : Half} (h : lfsrEight a = lfsrEight b) : a = b := by
  have e : lfsrEight (a ^^^ b) = 0#16 := by rw [lfsrEight_xor, h, BitVec.xor_self]
  unfold lfsrEight at e
  refine BitVec.xor_eq_zero_iff.1 ?_
  exact lfsrStep_eq_zero (lfsrStep_eq_zero (lfsrStep_eq_zero (lfsrStep_eq_zero (lfsrStep_eq_zero
    (lfsrStep_eq_zero (lfsrStep_eq_zero (lfsrStep_eq_zero e)))))))

end Sys2Proof.Machine
end

