-- ==== Sys2Proof/Laws/Memory.lean ====
section
/-! SUPPORT. The laws of the sparse memories: what a read gives after each operation, and that each operation keeps the
canonical form and the address space. -/

namespace Sys2Proof.Machine

variable {w : Nat}

/-! ### Reads -/

@[simp] theorem Memory.read_nil (a : Nat) : Memory.read ([] : Memory w) a = none := rfl

theorem Memory.read_none_of_above {m : Memory w} {a b : Nat} (h : m.above b = true) (hab : a ≤ b) :
    m.read a = none := by
  induction m with
  | nil => rfl
  | cons e rest ih =>
    obtain ⟨k, v⟩ := e
    simp only [Memory.above, Bool.and_eq_true, Nat.blt_eq] at h
    simp only [Memory.read, if_neg (show a ≠ k by omega), ih h.2]

theorem Memory.read_write_same (m : Memory w) (a : Nat) (v : BitVec w) : (m.write a v).read a = some v := by
  induction m with
  | nil => simp [Memory.write, Memory.read]
  | cons e rest ih =>
    obtain ⟨k, u⟩ := e
    simp only [Memory.write]
    split
    · simp [Memory.read]
    · split
      · simp [Memory.read]
      · simp only [Memory.read, if_neg ‹¬ a = k›, ih]

theorem Memory.read_write_other (m : Memory w) {a b : Nat} (v : BitVec w) (h : b ≠ a) :
    (m.write a v).read b = m.read b := by
  induction m with
  | nil => simp [Memory.write, Memory.read, h]
  | cons e rest ih =>
    obtain ⟨k, u⟩ := e
    simp only [Memory.write]
    split
    · simp only [Memory.read, if_neg h]
    · split
      · rename_i hk
        subst hk
        simp only [Memory.read, if_neg h]
      · simp only [Memory.read, ih]

/-- One write: the written address holds the value, every other address reads as before (R41). -/
theorem Memory.read_write (m : Memory w) (a b : Nat) (v : BitVec w) :
    (m.write a v).read b = if b = a then some v else m.read b := by
  split
  · rename_i h
    rw [h, Memory.read_write_same]
  · exact Memory.read_write_other m v ‹_›

theorem Memory.read_writeFrom_below (m : Memory w) (vs : List (BitVec w)) {a b : Nat} (h : b < a) :
    (m.writeFrom a vs).read b = m.read b := by
  induction vs generalizing m a with
  | nil => rfl
  | cons v rest ih =>
    rw [Memory.writeFrom, ih _ (by omega), Memory.read_write_other _ _ (by omega)]

/-- Consecutive writes: address `a + k` holds value `k`, every other address reads as before (R107). -/
theorem Memory.read_writeFrom (m : Memory w) (vs : List (BitVec w)) (a b : Nat) :
    (m.writeFrom a vs).read b = if h : a ≤ b ∧ b < a + vs.length then some (vs[b - a]'(by omega)) else m.read b := by
  induction vs generalizing m a with
  | nil => simp [Memory.writeFrom]
  | cons v rest ih =>
    rw [Memory.writeFrom]
    by_cases hb : b = a
    · subst hb
      rw [Memory.read_writeFrom_below _ _ (by omega), Memory.read_write_same]
      simp
    · rw [ih, Memory.read_write_other _ _ hb]
      by_cases h : a + 1 ≤ b ∧ b < a + 1 + rest.length
      · rw [dif_pos h, dif_pos (by simp only [List.length_cons]; omega)]
        have : b - a = (b - (a + 1)) + 1 := by omega
        simp [this]
      · rw [dif_neg h, dif_neg (by simp only [List.length_cons]; omega)]

/-- A memory filled from a list holds exactly the list's values (R36, R87). -/
theorem Memory.read_ofList (vs : List (BitVec w)) (a b : Nat) :
    (Memory.ofList a vs).read b = if a ≤ b then vs[b - a]? else none := by
  induction vs generalizing a with
  | nil => simp [Memory.ofList]
  | cons v rest ih =>
    simp only [Memory.ofList, Memory.read]
    split
    · rename_i h
      simp [h]
    · rw [ih]
      by_cases h : a ≤ b
      · have e : b - a = (b - (a + 1)) + 1 := by omega
        rw [if_pos (by omega), if_pos h, e, List.getElem?_cons_succ]
      · rw [if_neg (by omega), if_neg h]

theorem Memory.read_ofList_zero (vs : List (BitVec w)) (b : Nat) : (Memory.ofList 0 vs).read b = vs[b]? := by
  simp [Memory.read_ofList]

/-! ### The canonical form -/

theorem Memory.above_mono {m : Memory w} {a b : Nat} (h : m.above b = true) (hab : a ≤ b) : m.above a = true := by
  induction m with
  | nil => rfl
  | cons e rest ih =>
    simp only [Memory.above, Bool.and_eq_true, Nat.blt_eq] at h ⊢
    exact ⟨by omega, ih h.2⟩

theorem Memory.above_write {m : Memory w} {a b : Nat} (v : BitVec w) (h : m.above b = true) (hab : b < a) :
    (m.write a v).above b = true := by
  induction m with
  | nil => simp [Memory.write, Memory.above, hab]
  | cons e rest ih =>
    simp only [Memory.above, Bool.and_eq_true, Nat.blt_eq] at h
    simp only [Memory.write]
    split
    · simp [Memory.above, hab, h]
    · split
      · simp [Memory.above, hab, h]
      · simp [Memory.above, h, ih]

/-- A write keeps the canonical form. -/
theorem Memory.wf_write {m : Memory w} (a : Nat) (v : BitVec w) (h : m.wf = true) : (m.write a v).wf = true := by
  induction m with
  | nil => rfl
  | cons e rest ih =>
    simp only [Memory.wf, Bool.and_eq_true] at h
    simp only [Memory.write]
    split
    · simp only [Memory.wf, Memory.above, Bool.and_eq_true, Nat.blt_eq]
      exact ⟨⟨‹_›, Memory.above_mono h.1 (by omega)⟩, h⟩
    · split
      · rename_i ha
        subst ha
        simp [Memory.wf, h]
      · simp only [Memory.wf, Bool.and_eq_true]
        exact ⟨Memory.above_write v h.1 (by omega), ih h.2⟩

/-- Consecutive writes keep the canonical form. -/
theorem Memory.wf_writeFrom {m : Memory w} (a : Nat) (vs : List (BitVec w)) (h : m.wf = true) :
    (m.writeFrom a vs).wf = true := by
  induction vs generalizing m a with
  | nil => exact h
  | cons v rest ih => exact ih (a + 1) (Memory.wf_write a v h)

theorem Memory.above_ofList (vs : List (BitVec w)) {a b : Nat} (h : b < a) : (Memory.ofList a vs).above b = true := by
  induction vs generalizing a with
  | nil => rfl
  | cons v rest ih =>
    simp only [Memory.ofList, Memory.above, Bool.and_eq_true, Nat.blt_eq]
    exact ⟨h, ih (by omega)⟩

/-- A memory filled from a list has the canonical form. -/
theorem Memory.wf_ofList (vs : List (BitVec w)) (a : Nat) : (Memory.ofList a vs).wf = true := by
  induction vs generalizing a with
  | nil => rfl
  | cons v rest ih =>
    simp only [Memory.ofList, Memory.wf, Bool.and_eq_true]
    exact ⟨Memory.above_ofList rest (by omega), ih (a + 1)⟩

/-! ### The address space -/

/-- A write inside the address space keeps the memory inside it. -/
theorem Memory.within_write {m : Memory w} {n a : Nat} (v : BitVec w) (h : m.within n = true) (ha : a < n) :
    (m.write a v).within n = true := by
  induction m with
  | nil => simp [Memory.write, Memory.within, ha]
  | cons e rest ih =>
    simp only [Memory.within, Bool.and_eq_true, Nat.blt_eq] at h
    simp only [Memory.write]
    split
    · simp [Memory.within, ha, h]
    · split
      · simp [Memory.within, ha, h]
      · simp [Memory.within, h, ih]

/-- Consecutive writes inside the address space keep the memory inside it. -/
theorem Memory.within_writeFrom {m : Memory w} {n a : Nat} (vs : List (BitVec w)) (h : m.within n = true)
    (ha : a + vs.length ≤ n) : (m.writeFrom a vs).within n = true := by
  induction vs generalizing m a with
  | nil => exact h
  | cons v rest ih =>
    simp only [List.length_cons] at ha
    exact ih (Memory.within_write v h (by omega)) (by omega)

/-- A memory filled from a list lies inside an address space that has room for the list. -/
theorem Memory.within_ofList (vs : List (BitVec w)) {n a : Nat} (h : a + vs.length ≤ n) :
    (Memory.ofList a vs).within n = true := by
  induction vs generalizing a with
  | nil => rfl
  | cons v rest ih =>
    simp only [List.length_cons] at h
    simp only [Memory.ofList, Memory.within, Bool.and_eq_true, Nat.blt_eq]
    exact ⟨by omega, ih (by omega)⟩

/-! ### Full memories -/

theorem Memory.full_iff (m : Memory w) (n : Nat) : m.full n = true ↔ ∀ a, a < n → ∃ v, m.read a = some v := by
  simp [Memory.full, List.all_eq_true, Option.isSome_iff_exists]

/-- A write leaves a full memory full. -/
theorem Memory.full_write {m : Memory w} {n : Nat} (a : Nat) (v : BitVec w) (h : m.full n = true) :
    (m.write a v).full n = true := by
  rw [Memory.full_iff] at h ⊢
  intro b hb
  rw [Memory.read_write]
  split
  · exact ⟨v, rfl⟩
  · exact h b hb

/-- A memory filled from a list of `n` values is full. -/
theorem Memory.full_ofList (vs : List (BitVec w)) : (Memory.ofList 0 vs).full vs.length = true := by
  rw [Memory.full_iff]
  intro a ha
  exact ⟨vs[a], by rw [Memory.read_ofList_zero, List.getElem?_eq_getElem ha]⟩

/-! ### Equality -/

/-- Memories in canonical form are equal exactly if they read alike: equal memories are equal data. -/
theorem Memory.ext_read {m n : Memory w} (hm : m.wf = true) (hn : n.wf = true) (h : ∀ a, m.read a = n.read a) :
    m = n := by
  induction m generalizing n with
  | nil =>
    cases n with
    | nil => rfl
    | cons e r => simpa [Memory.read] using h e.1
  | cons e r ih =>
    obtain ⟨k, v⟩ := e
    cases n with
    | nil => simpa [Memory.read] using h k
    | cons f q =>
      obtain ⟨k', v'⟩ := f
      simp only [Memory.wf, Bool.and_eq_true] at hm hn
      have hk : k = k' := by
        rcases Nat.lt_trichotomy k k' with x | x | x
        · have e := h k
          simp [Memory.read, show k ≠ k' by omega, Memory.read_none_of_above hn.1 (show k ≤ k' by omega)] at e
        · exact x
        · have e := h k'
          simp [Memory.read, show k' ≠ k by omega, Memory.read_none_of_above hm.1 (show k' ≤ k by omega)] at e
      subst hk
      have hv : v = v' := by simpa [Memory.read] using h k
      subst hv
      refine congrArg _ (ih hm.2 hn.2 fun a => ?_)
      by_cases x : a ≤ k
      · rw [Memory.read_none_of_above hm.1 x, Memory.read_none_of_above hn.1 x]
      · simpa [Memory.read, show a ≠ k by omega] using h a

end Sys2Proof.Machine
end

