-- ==== Sys2Proof/Laws/State.lean ====
section
/-! SUPPORT. One lemma per field for each shared update of the state, so that no proof unfolds a record update. -/

namespace Sys2Proof.Machine

/-! ### Control transfer -/

@[simp] theorem State.goto_cfg (s : State) (code : BitVec 5) : (s.goto code).cfg = s.cfg := rfl
@[simp] theorem State.goto_crc (s : State) (code : BitVec 5) : (s.goto code).crc = s.crc := rfl
@[simp] theorem State.goto_seq (s : State) (code : BitVec 5) : (s.goto code).seq = s.seq := rfl
@[simp] theorem State.goto_rxcrc (s : State) (code : BitVec 5) : (s.goto code).rxcrc = s.rxcrc := rfl
@[simp] theorem State.goto_iter (s : State) (code : BitVec 5) : (s.goto code).iter = s.iter := rfl
@[simp] theorem State.goto_pkt (s : State) (code : BitVec 5) : (s.goto code).pkt = s.pkt := rfl
@[simp] theorem State.goto_table (s : State) (code : BitVec 5) : (s.goto code).table = s.table := rfl
@[simp] theorem State.goto_frame (s : State) (code : BitVec 5) : (s.goto code).frame = s.frame := rfl
@[simp] theorem State.goto_state (s : State) (code : BitVec 5) : (s.goto code).state = code := rfl
@[simp] theorem State.goto_run (s : State) (code : BitVec 5) : (s.goto code).run = s.run := rfl
@[simp] theorem State.goto_cs (s : State) (code : BitVec 5) : (s.goto code).cs = s.cs := rfl
@[simp] theorem State.goto_err (s : State) (code : BitVec 5) : (s.goto code).err = s.err := rfl
@[simp] theorem State.goto_errinfo (s : State) (code : BitVec 5) : (s.goto code).errinfo = s.errinfo := rfl
@[simp] theorem State.goto_pos (s : State) (code : BitVec 5) : (s.goto code).pos = s.pos := rfl
@[simp] theorem State.goto_trace (s : State) (code : BitVec 5) : (s.goto code).trace = s.trace := rfl
@[simp] theorem State.goto_readData (s : State) (code : BitVec 5) : (s.goto code).readData = s.readData := rfl
@[simp] theorem State.goto_sampleOut (s : State) (code : BitVec 5) : (s.goto code).sampleOut = s.sampleOut := rfl
@[simp] theorem State.goto_rowAddrOut (s : State) (code : BitVec 5) : (s.goto code).rowAddrOut = s.rowAddrOut := rfl
@[simp] theorem State.goto_ports (s : State) (code : BitVec 5) : (s.goto code).ports = s.ports := rfl
@[simp] theorem State.goto_bus (s : State) (code : BitVec 5) : (s.goto code).bus = s.bus := rfl
@[simp] theorem State.goto_busLoop (s : State) (code : BitVec 5) : (s.goto code).busLoop = s.busLoop := rfl
@[simp] theorem State.goto_draws (s : State) (code : BitVec 5) : (s.goto code).draws = s.draws := rfl

/-! ### The trace -/

@[simp] theorem State.log_cfg (s : State) (e : TraceEvent) : (s.log e).cfg = s.cfg := rfl
@[simp] theorem State.log_crc (s : State) (e : TraceEvent) : (s.log e).crc = s.crc := rfl
@[simp] theorem State.log_seq (s : State) (e : TraceEvent) : (s.log e).seq = s.seq := rfl
@[simp] theorem State.log_rxcrc (s : State) (e : TraceEvent) : (s.log e).rxcrc = s.rxcrc := rfl
@[simp] theorem State.log_iter (s : State) (e : TraceEvent) : (s.log e).iter = s.iter := rfl
@[simp] theorem State.log_pkt (s : State) (e : TraceEvent) : (s.log e).pkt = s.pkt := rfl
@[simp] theorem State.log_table (s : State) (e : TraceEvent) : (s.log e).table = s.table := rfl
@[simp] theorem State.log_frame (s : State) (e : TraceEvent) : (s.log e).frame = s.frame := rfl
@[simp] theorem State.log_state (s : State) (e : TraceEvent) : (s.log e).state = s.state := rfl
@[simp] theorem State.log_run (s : State) (e : TraceEvent) : (s.log e).run = s.run := rfl
@[simp] theorem State.log_cs (s : State) (e : TraceEvent) : (s.log e).cs = s.cs := rfl
@[simp] theorem State.log_err (s : State) (e : TraceEvent) : (s.log e).err = s.err := rfl
@[simp] theorem State.log_errinfo (s : State) (e : TraceEvent) : (s.log e).errinfo = s.errinfo := rfl
@[simp] theorem State.log_pos (s : State) (e : TraceEvent) : (s.log e).pos = s.pos := rfl
@[simp] theorem State.log_trace (s : State) (e : TraceEvent) : (s.log e).trace = s.trace ++ [e] := rfl
@[simp] theorem State.log_readData (s : State) (e : TraceEvent) : (s.log e).readData = s.readData := rfl
@[simp] theorem State.log_sampleOut (s : State) (e : TraceEvent) : (s.log e).sampleOut = s.sampleOut := rfl
@[simp] theorem State.log_rowAddrOut (s : State) (e : TraceEvent) : (s.log e).rowAddrOut = s.rowAddrOut := rfl
@[simp] theorem State.log_ports (s : State) (e : TraceEvent) : (s.log e).ports = s.ports := rfl
@[simp] theorem State.log_bus (s : State) (e : TraceEvent) : (s.log e).bus = s.bus := rfl
@[simp] theorem State.log_busLoop (s : State) (e : TraceEvent) : (s.log e).busLoop = s.busLoop := rfl
@[simp] theorem State.log_draws (s : State) (e : TraceEvent) : (s.log e).draws = s.draws := rfl

/-! ### The draw counter -/

@[simp] theorem State.draw_cfg (s : State) : (s.draw).cfg = s.cfg := rfl
@[simp] theorem State.draw_crc (s : State) : (s.draw).crc = s.crc := rfl
@[simp] theorem State.draw_seq (s : State) : (s.draw).seq = s.seq := rfl
@[simp] theorem State.draw_rxcrc (s : State) : (s.draw).rxcrc = s.rxcrc := rfl
@[simp] theorem State.draw_iter (s : State) : (s.draw).iter = s.iter := rfl
@[simp] theorem State.draw_pkt (s : State) : (s.draw).pkt = s.pkt := rfl
@[simp] theorem State.draw_table (s : State) : (s.draw).table = s.table := rfl
@[simp] theorem State.draw_frame (s : State) : (s.draw).frame = s.frame := rfl
@[simp] theorem State.draw_state (s : State) : (s.draw).state = s.state := rfl
@[simp] theorem State.draw_run (s : State) : (s.draw).run = s.run := rfl
@[simp] theorem State.draw_cs (s : State) : (s.draw).cs = s.cs := rfl
@[simp] theorem State.draw_err (s : State) : (s.draw).err = s.err := rfl
@[simp] theorem State.draw_errinfo (s : State) : (s.draw).errinfo = s.errinfo := rfl
@[simp] theorem State.draw_pos (s : State) : (s.draw).pos = s.pos := rfl
@[simp] theorem State.draw_trace (s : State) : (s.draw).trace = s.trace := rfl
@[simp] theorem State.draw_readData (s : State) : (s.draw).readData = s.readData := rfl
@[simp] theorem State.draw_sampleOut (s : State) : (s.draw).sampleOut = s.sampleOut := rfl
@[simp] theorem State.draw_rowAddrOut (s : State) : (s.draw).rowAddrOut = s.rowAddrOut := rfl
@[simp] theorem State.draw_ports (s : State) : (s.draw).ports = s.ports := rfl
@[simp] theorem State.draw_bus (s : State) : (s.draw).bus = s.bus := rfl
@[simp] theorem State.draw_busLoop (s : State) : (s.draw).busLoop = s.busLoop := rfl
@[simp] theorem State.draw_draws (s : State) : (s.draw).draws = s.draws + 1 := rfl

/-! ### The request of a transfer -/

@[simp] theorem State.requestTransfer_cfg (s : State) : (s.requestTransfer).cfg = s.cfg := rfl
@[simp] theorem State.requestTransfer_crc (s : State) : (s.requestTransfer).crc = s.crc := rfl
@[simp] theorem State.requestTransfer_seq (s : State) : (s.requestTransfer).seq = s.seq := rfl
@[simp] theorem State.requestTransfer_rxcrc (s : State) : (s.requestTransfer).rxcrc = s.rxcrc := rfl
@[simp] theorem State.requestTransfer_iter (s : State) : (s.requestTransfer).iter = s.iter := rfl
@[simp] theorem State.requestTransfer_pkt (s : State) : (s.requestTransfer).pkt = [] := rfl
@[simp] theorem State.requestTransfer_table (s : State) : (s.requestTransfer).table = s.table := rfl
@[simp] theorem State.requestTransfer_frame (s : State) : (s.requestTransfer).frame = s.frame := rfl
@[simp] theorem State.requestTransfer_state (s : State) : (s.requestTransfer).state = Code.xfer := rfl
@[simp] theorem State.requestTransfer_run (s : State) : (s.requestTransfer).run = s.run := rfl
@[simp] theorem State.requestTransfer_cs (s : State) : (s.requestTransfer).cs = s.cs := rfl
@[simp] theorem State.requestTransfer_err (s : State) : (s.requestTransfer).err = s.err := rfl
@[simp] theorem State.requestTransfer_errinfo (s : State) : (s.requestTransfer).errinfo = s.errinfo := rfl
@[simp] theorem State.requestTransfer_pos (s : State) : (s.requestTransfer).pos = s.pos := rfl
@[simp] theorem State.requestTransfer_trace (s : State) : (s.requestTransfer).trace = s.trace := rfl
@[simp] theorem State.requestTransfer_readData (s : State) : (s.requestTransfer).readData = s.readData := rfl
@[simp] theorem State.requestTransfer_sampleOut (s : State) : (s.requestTransfer).sampleOut = s.sampleOut := rfl
@[simp] theorem State.requestTransfer_rowAddrOut (s : State) : (s.requestTransfer).rowAddrOut = s.rowAddrOut := rfl
@[simp] theorem State.requestTransfer_ports (s : State) : (s.requestTransfer).ports = s.ports := rfl
@[simp] theorem State.requestTransfer_bus (s : State) : (s.requestTransfer).bus = s.bus := rfl
@[simp] theorem State.requestTransfer_busLoop (s : State) : (s.requestTransfer).busLoop = s.busLoop := rfl
@[simp] theorem State.requestTransfer_draws (s : State) : (s.requestTransfer).draws = s.draws := rfl

/-! ### Reception of a packet -/

@[simp] theorem State.receive_cfg (s : State) (b : List Byte) : (s.receive b).cfg = s.cfg := rfl
@[simp] theorem State.receive_crc (s : State) (b : List Byte) : (s.receive b).crc = s.crc := rfl
@[simp] theorem State.receive_seq (s : State) (b : List Byte) : (s.receive b).seq = s.seq := rfl
@[simp] theorem State.receive_rxcrc (s : State) (b : List Byte) : (s.receive b).rxcrc = s.rxcrc := rfl
@[simp] theorem State.receive_iter (s : State) (b : List Byte) : (s.receive b).iter = s.iter := rfl
@[simp] theorem State.receive_pkt (s : State) (b : List Byte) : (s.receive b).pkt = Memory.ofList 0 b := rfl
@[simp] theorem State.receive_table (s : State) (b : List Byte) : (s.receive b).table = s.table := rfl
@[simp] theorem State.receive_frame (s : State) (b : List Byte) : (s.receive b).frame = s.frame := rfl
@[simp] theorem State.receive_state (s : State) (b : List Byte) : (s.receive b).state = Code.classify := rfl
@[simp] theorem State.receive_run (s : State) (b : List Byte) : (s.receive b).run = s.run := rfl
@[simp] theorem State.receive_cs (s : State) (b : List Byte) : (s.receive b).cs = s.cs := rfl
@[simp] theorem State.receive_err (s : State) (b : List Byte) : (s.receive b).err = s.err := rfl
@[simp] theorem State.receive_errinfo (s : State) (b : List Byte) : (s.receive b).errinfo = s.errinfo := rfl
@[simp] theorem State.receive_pos (s : State) (b : List Byte) : (s.receive b).pos = s.pos + 1 := rfl
@[simp] theorem State.receive_trace (s : State) (b : List Byte) : (s.receive b).trace = s.trace ++ [TraceEvent.xfer (s.pos + 1) true] := rfl
@[simp] theorem State.receive_readData (s : State) (b : List Byte) : (s.receive b).readData = s.readData := rfl
@[simp] theorem State.receive_sampleOut (s : State) (b : List Byte) : (s.receive b).sampleOut = s.sampleOut := rfl
@[simp] theorem State.receive_rowAddrOut (s : State) (b : List Byte) : (s.receive b).rowAddrOut = s.rowAddrOut := rfl
@[simp] theorem State.receive_ports (s : State) (b : List Byte) : (s.receive b).ports = s.ports := rfl
@[simp] theorem State.receive_bus (s : State) (b : List Byte) : (s.receive b).bus = s.bus := rfl
@[simp] theorem State.receive_busLoop (s : State) (b : List Byte) : (s.receive b).busLoop = s.busLoop := rfl
@[simp] theorem State.receive_draws (s : State) (b : List Byte) : (s.receive b).draws = s.draws := rfl

/-! ### The entry to DONE -/

@[simp] theorem State.enterDone_cfg (s : State) : (s.enterDone).cfg = s.cfg := rfl
@[simp] theorem State.enterDone_crc (s : State) : (s.enterDone).crc = s.crc := rfl
@[simp] theorem State.enterDone_seq (s : State) : (s.enterDone).seq = s.seq := rfl
@[simp] theorem State.enterDone_rxcrc (s : State) : (s.enterDone).rxcrc = s.rxcrc := rfl
@[simp] theorem State.enterDone_iter (s : State) : (s.enterDone).iter = s.iter := rfl
@[simp] theorem State.enterDone_pkt (s : State) : (s.enterDone).pkt = s.pkt := rfl
@[simp] theorem State.enterDone_table (s : State) : (s.enterDone).table = s.table := rfl
@[simp] theorem State.enterDone_frame (s : State) : (s.enterDone).frame = s.frame := rfl
@[simp] theorem State.enterDone_state (s : State) : (s.enterDone).state = Code.done := rfl
@[simp] theorem State.enterDone_run (s : State) : (s.enterDone).run = s.run := rfl
@[simp] theorem State.enterDone_cs (s : State) : (s.enterDone).cs = false := rfl
@[simp] theorem State.enterDone_err (s : State) : (s.enterDone).err = s.err := rfl
@[simp] theorem State.enterDone_errinfo (s : State) : (s.enterDone).errinfo = s.errinfo := rfl
@[simp] theorem State.enterDone_pos (s : State) : (s.enterDone).pos = s.pos := rfl
@[simp] theorem State.enterDone_trace (s : State) : (s.enterDone).trace = s.trace := rfl
@[simp] theorem State.enterDone_readData (s : State) : (s.enterDone).readData = s.readData := rfl
@[simp] theorem State.enterDone_sampleOut (s : State) : (s.enterDone).sampleOut = s.sampleOut := rfl
@[simp] theorem State.enterDone_rowAddrOut (s : State) : (s.enterDone).rowAddrOut = s.rowAddrOut := rfl
@[simp] theorem State.enterDone_ports (s : State) : (s.enterDone).ports = s.ports := rfl
@[simp] theorem State.enterDone_bus (s : State) : (s.enterDone).bus = s.bus := rfl
@[simp] theorem State.enterDone_busLoop (s : State) : (s.enterDone).busLoop = s.busLoop := rfl
@[simp] theorem State.enterDone_draws (s : State) : (s.enterDone).draws = s.draws := rfl

/-! ### The entry to CANCELLED -/

@[simp] theorem State.enterCancelled_cfg (s : State) : (s.enterCancelled).cfg = s.cfg := rfl
@[simp] theorem State.enterCancelled_crc (s : State) : (s.enterCancelled).crc = s.crc := rfl
@[simp] theorem State.enterCancelled_seq (s : State) : (s.enterCancelled).seq = s.seq := rfl
@[simp] theorem State.enterCancelled_rxcrc (s : State) : (s.enterCancelled).rxcrc = s.rxcrc := rfl
@[simp] theorem State.enterCancelled_iter (s : State) : (s.enterCancelled).iter = s.iter := rfl
@[simp] theorem State.enterCancelled_pkt (s : State) : (s.enterCancelled).pkt = s.pkt := rfl
@[simp] theorem State.enterCancelled_table (s : State) : (s.enterCancelled).table = s.table := rfl
@[simp] theorem State.enterCancelled_frame (s : State) : (s.enterCancelled).frame = s.frame := rfl
@[simp] theorem State.enterCancelled_state (s : State) : (s.enterCancelled).state = Code.cancelled := rfl
@[simp] theorem State.enterCancelled_run (s : State) : (s.enterCancelled).run = s.run := rfl
@[simp] theorem State.enterCancelled_cs (s : State) : (s.enterCancelled).cs = false := rfl
@[simp] theorem State.enterCancelled_err (s : State) : (s.enterCancelled).err = s.err := rfl
@[simp] theorem State.enterCancelled_errinfo (s : State) : (s.enterCancelled).errinfo = s.errinfo := rfl
@[simp] theorem State.enterCancelled_pos (s : State) : (s.enterCancelled).pos = s.pos := rfl
@[simp] theorem State.enterCancelled_trace (s : State) : (s.enterCancelled).trace = s.trace := rfl
@[simp] theorem State.enterCancelled_readData (s : State) : (s.enterCancelled).readData = s.readData := rfl
@[simp] theorem State.enterCancelled_sampleOut (s : State) : (s.enterCancelled).sampleOut = s.sampleOut := rfl
@[simp] theorem State.enterCancelled_rowAddrOut (s : State) : (s.enterCancelled).rowAddrOut = s.rowAddrOut := rfl
@[simp] theorem State.enterCancelled_ports (s : State) : (s.enterCancelled).ports = s.ports := rfl
@[simp] theorem State.enterCancelled_bus (s : State) : (s.enterCancelled).bus = s.bus := rfl
@[simp] theorem State.enterCancelled_busLoop (s : State) : (s.enterCancelled).busLoop = s.busLoop := rfl
@[simp] theorem State.enterCancelled_draws (s : State) : (s.enterCancelled).draws = s.draws := rfl

/-! ### The entry to FAULT -/

@[simp] theorem State.raiseFault_cfg (s : State) (code : BitVec 3) (info : BitVec 44) : (s.raiseFault code info).cfg = s.cfg := rfl
@[simp] theorem State.raiseFault_crc (s : State) (code : BitVec 3) (info : BitVec 44) : (s.raiseFault code info).crc = s.crc := rfl
@[simp] theorem State.raiseFault_seq (s : State) (code : BitVec 3) (info : BitVec 44) : (s.raiseFault code info).seq = s.seq := rfl
@[simp] theorem State.raiseFault_rxcrc (s : State) (code : BitVec 3) (info : BitVec 44) : (s.raiseFault code info).rxcrc = s.rxcrc := rfl
@[simp] theorem State.raiseFault_iter (s : State) (code : BitVec 3) (info : BitVec 44) : (s.raiseFault code info).iter = s.iter := rfl
@[simp] theorem State.raiseFault_pkt (s : State) (code : BitVec 3) (info : BitVec 44) : (s.raiseFault code info).pkt = s.pkt := rfl
@[simp] theorem State.raiseFault_table (s : State) (code : BitVec 3) (info : BitVec 44) : (s.raiseFault code info).table = s.table := rfl
@[simp] theorem State.raiseFault_frame (s : State) (code : BitVec 3) (info : BitVec 44) : (s.raiseFault code info).frame = s.frame := rfl
@[simp] theorem State.raiseFault_state (s : State) (code : BitVec 3) (info : BitVec 44) : (s.raiseFault code info).state = Code.fault := rfl
@[simp] theorem State.raiseFault_run (s : State) (code : BitVec 3) (info : BitVec 44) : (s.raiseFault code info).run = s.run := rfl
@[simp] theorem State.raiseFault_cs (s : State) (code : BitVec 3) (info : BitVec 44) : (s.raiseFault code info).cs = false := rfl
@[simp] theorem State.raiseFault_err (s : State) (code : BitVec 3) (info : BitVec 44) : (s.raiseFault code info).err = code := rfl
@[simp] theorem State.raiseFault_errinfo (s : State) (code : BitVec 3) (info : BitVec 44) : (s.raiseFault code info).errinfo = info := rfl
@[simp] theorem State.raiseFault_pos (s : State) (code : BitVec 3) (info : BitVec 44) : (s.raiseFault code info).pos = s.pos := rfl
@[simp] theorem State.raiseFault_trace (s : State) (code : BitVec 3) (info : BitVec 44) : (s.raiseFault code info).trace = s.trace := rfl
@[simp] theorem State.raiseFault_readData (s : State) (code : BitVec 3) (info : BitVec 44) : (s.raiseFault code info).readData = s.readData := rfl
@[simp] theorem State.raiseFault_sampleOut (s : State) (code : BitVec 3) (info : BitVec 44) : (s.raiseFault code info).sampleOut = s.sampleOut := rfl
@[simp] theorem State.raiseFault_rowAddrOut (s : State) (code : BitVec 3) (info : BitVec 44) : (s.raiseFault code info).rowAddrOut = s.rowAddrOut := rfl
@[simp] theorem State.raiseFault_ports (s : State) (code : BitVec 3) (info : BitVec 44) : (s.raiseFault code info).ports = s.ports := rfl
@[simp] theorem State.raiseFault_bus (s : State) (code : BitVec 3) (info : BitVec 44) : (s.raiseFault code info).bus = s.bus := rfl
@[simp] theorem State.raiseFault_busLoop (s : State) (code : BitVec 3) (info : BitVec 44) : (s.raiseFault code info).busLoop = s.busLoop := rfl
@[simp] theorem State.raiseFault_draws (s : State) (code : BitVec 3) (info : BitVec 44) : (s.raiseFault code info).draws = s.draws := rfl

/-! ### TransportError -/

@[simp] theorem State.raiseTransport_cfg (s : State) (t : TransportCode) : (s.raiseTransport t).cfg = s.cfg := rfl
@[simp] theorem State.raiseTransport_crc (s : State) (t : TransportCode) : (s.raiseTransport t).crc = s.crc := rfl
@[simp] theorem State.raiseTransport_seq (s : State) (t : TransportCode) : (s.raiseTransport t).seq = s.seq := rfl
@[simp] theorem State.raiseTransport_rxcrc (s : State) (t : TransportCode) : (s.raiseTransport t).rxcrc = s.rxcrc := rfl
@[simp] theorem State.raiseTransport_iter (s : State) (t : TransportCode) : (s.raiseTransport t).iter = s.iter := rfl
@[simp] theorem State.raiseTransport_pkt (s : State) (t : TransportCode) : (s.raiseTransport t).pkt = [] := rfl
@[simp] theorem State.raiseTransport_table (s : State) (t : TransportCode) : (s.raiseTransport t).table = s.table := rfl
@[simp] theorem State.raiseTransport_frame (s : State) (t : TransportCode) : (s.raiseTransport t).frame = s.frame := rfl
@[simp] theorem State.raiseTransport_state (s : State) (t : TransportCode) : (s.raiseTransport t).state = Code.fault := rfl
@[simp] theorem State.raiseTransport_run (s : State) (t : TransportCode) : (s.raiseTransport t).run = s.run := rfl
@[simp] theorem State.raiseTransport_cs (s : State) (t : TransportCode) : (s.raiseTransport t).cs = false := rfl
@[simp] theorem State.raiseTransport_err (s : State) (t : TransportCode) : (s.raiseTransport t).err = 1#3 := rfl
@[simp] theorem State.raiseTransport_errinfo (s : State) (t : TransportCode) : (s.raiseTransport t).errinfo = transportErrinfo s.cfg s.draws t := rfl
@[simp] theorem State.raiseTransport_pos (s : State) (t : TransportCode) : (s.raiseTransport t).pos = s.pos + 1 := rfl
@[simp] theorem State.raiseTransport_trace (s : State) (t : TransportCode) : (s.raiseTransport t).trace = s.trace ++ [TraceEvent.xfer (s.pos + 1) false] := rfl
@[simp] theorem State.raiseTransport_readData (s : State) (t : TransportCode) : (s.raiseTransport t).readData = s.readData := rfl
@[simp] theorem State.raiseTransport_sampleOut (s : State) (t : TransportCode) : (s.raiseTransport t).sampleOut = s.sampleOut := rfl
@[simp] theorem State.raiseTransport_rowAddrOut (s : State) (t : TransportCode) : (s.raiseTransport t).rowAddrOut = s.rowAddrOut := rfl
@[simp] theorem State.raiseTransport_ports (s : State) (t : TransportCode) : (s.raiseTransport t).ports = s.ports := rfl
@[simp] theorem State.raiseTransport_bus (s : State) (t : TransportCode) : (s.raiseTransport t).bus = s.bus := rfl
@[simp] theorem State.raiseTransport_busLoop (s : State) (t : TransportCode) : (s.raiseTransport t).busLoop = s.busLoop := rfl
@[simp] theorem State.raiseTransport_draws (s : State) (t : TransportCode) : (s.raiseTransport t).draws = s.draws + 1 := rfl

/-! ### ChecksumMismatch -/

@[simp] theorem State.raiseChecksum_cfg (s : State) : (s.raiseChecksum).cfg = s.cfg := rfl
@[simp] theorem State.raiseChecksum_crc (s : State) : (s.raiseChecksum).crc = s.crc := rfl
@[simp] theorem State.raiseChecksum_seq (s : State) : (s.raiseChecksum).seq = s.seq := rfl
@[simp] theorem State.raiseChecksum_rxcrc (s : State) : (s.raiseChecksum).rxcrc = s.rxcrc := rfl
@[simp] theorem State.raiseChecksum_iter (s : State) : (s.raiseChecksum).iter = s.iter := rfl
@[simp] theorem State.raiseChecksum_pkt (s : State) : (s.raiseChecksum).pkt = s.pkt := rfl
@[simp] theorem State.raiseChecksum_table (s : State) : (s.raiseChecksum).table = s.table := rfl
@[simp] theorem State.raiseChecksum_frame (s : State) : (s.raiseChecksum).frame = s.frame := rfl
@[simp] theorem State.raiseChecksum_state (s : State) : (s.raiseChecksum).state = Code.fault := rfl
@[simp] theorem State.raiseChecksum_run (s : State) : (s.raiseChecksum).run = s.run := rfl
@[simp] theorem State.raiseChecksum_cs (s : State) : (s.raiseChecksum).cs = false := rfl
@[simp] theorem State.raiseChecksum_err (s : State) : (s.raiseChecksum).err = 2#3 := rfl
@[simp] theorem State.raiseChecksum_errinfo (s : State) : (s.raiseChecksum).errinfo = packErrinfo s.rxcrc s.crc s.seq := rfl
@[simp] theorem State.raiseChecksum_pos (s : State) : (s.raiseChecksum).pos = s.pos := rfl
@[simp] theorem State.raiseChecksum_trace (s : State) : (s.raiseChecksum).trace = s.trace := rfl
@[simp] theorem State.raiseChecksum_readData (s : State) : (s.raiseChecksum).readData = s.readData := rfl
@[simp] theorem State.raiseChecksum_sampleOut (s : State) : (s.raiseChecksum).sampleOut = s.sampleOut := rfl
@[simp] theorem State.raiseChecksum_rowAddrOut (s : State) : (s.raiseChecksum).rowAddrOut = s.rowAddrOut := rfl
@[simp] theorem State.raiseChecksum_ports (s : State) : (s.raiseChecksum).ports = s.ports := rfl
@[simp] theorem State.raiseChecksum_bus (s : State) : (s.raiseChecksum).bus = s.bus := rfl
@[simp] theorem State.raiseChecksum_busLoop (s : State) : (s.raiseChecksum).busLoop = s.busLoop := rfl
@[simp] theorem State.raiseChecksum_draws (s : State) : (s.raiseChecksum).draws = s.draws := rfl

/-! ### SeqOutOfRange -/

@[simp] theorem State.raiseSeqRange_cfg (s : State) : (s.raiseSeqRange).cfg = s.cfg := rfl
@[simp] theorem State.raiseSeqRange_crc (s : State) : (s.raiseSeqRange).crc = s.crc := rfl
@[simp] theorem State.raiseSeqRange_seq (s : State) : (s.raiseSeqRange).seq = s.seq := rfl
@[simp] theorem State.raiseSeqRange_rxcrc (s : State) : (s.raiseSeqRange).rxcrc = s.rxcrc := rfl
@[simp] theorem State.raiseSeqRange_iter (s : State) : (s.raiseSeqRange).iter = s.iter := rfl
@[simp] theorem State.raiseSeqRange_pkt (s : State) : (s.raiseSeqRange).pkt = s.pkt := rfl
@[simp] theorem State.raiseSeqRange_table (s : State) : (s.raiseSeqRange).table = s.table := rfl
@[simp] theorem State.raiseSeqRange_frame (s : State) : (s.raiseSeqRange).frame = s.frame := rfl
@[simp] theorem State.raiseSeqRange_state (s : State) : (s.raiseSeqRange).state = Code.fault := rfl
@[simp] theorem State.raiseSeqRange_run (s : State) : (s.raiseSeqRange).run = s.run := rfl
@[simp] theorem State.raiseSeqRange_cs (s : State) : (s.raiseSeqRange).cs = false := rfl
@[simp] theorem State.raiseSeqRange_err (s : State) : (s.raiseSeqRange).err = 3#3 := rfl
@[simp] theorem State.raiseSeqRange_errinfo (s : State) : (s.raiseSeqRange).errinfo = packErrinfo s.rxcrc s.crc s.seq := rfl
@[simp] theorem State.raiseSeqRange_pos (s : State) : (s.raiseSeqRange).pos = s.pos := rfl
@[simp] theorem State.raiseSeqRange_trace (s : State) : (s.raiseSeqRange).trace = s.trace := rfl
@[simp] theorem State.raiseSeqRange_readData (s : State) : (s.raiseSeqRange).readData = s.readData := rfl
@[simp] theorem State.raiseSeqRange_sampleOut (s : State) : (s.raiseSeqRange).sampleOut = s.sampleOut := rfl
@[simp] theorem State.raiseSeqRange_rowAddrOut (s : State) : (s.raiseSeqRange).rowAddrOut = s.rowAddrOut := rfl
@[simp] theorem State.raiseSeqRange_ports (s : State) : (s.raiseSeqRange).ports = s.ports := rfl
@[simp] theorem State.raiseSeqRange_bus (s : State) : (s.raiseSeqRange).bus = s.bus := rfl
@[simp] theorem State.raiseSeqRange_busLoop (s : State) : (s.raiseSeqRange).busLoop = s.busLoop := rfl
@[simp] theorem State.raiseSeqRange_draws (s : State) : (s.raiseSeqRange).draws = s.draws := rfl

/-! ### Reset -/

@[simp] theorem State.afterReset_cfg (s : State) : (s.afterReset).cfg = s.cfg := rfl
@[simp] theorem State.afterReset_crc (s : State) : (s.afterReset).crc = Config.freeCrc s.draws := rfl
@[simp] theorem State.afterReset_seq (s : State) : (s.afterReset).seq = Config.freeSeq s.draws := rfl
@[simp] theorem State.afterReset_rxcrc (s : State) : (s.afterReset).rxcrc = Config.freeRxcrc s.draws := rfl
@[simp] theorem State.afterReset_iter (s : State) : (s.afterReset).iter = 0 := rfl
@[simp] theorem State.afterReset_pkt (s : State) : (s.afterReset).pkt = [] := rfl
@[simp] theorem State.afterReset_table (s : State) : (s.afterReset).table = crcTable := rfl
@[simp] theorem State.afterReset_frame (s : State) : (s.afterReset).frame = [] := rfl
@[simp] theorem State.afterReset_state (s : State) : (s.afterReset).state = Code.idle := rfl
@[simp] theorem State.afterReset_run (s : State) : (s.afterReset).run = true := rfl
@[simp] theorem State.afterReset_cs (s : State) : (s.afterReset).cs = false := rfl
@[simp] theorem State.afterReset_err (s : State) : (s.afterReset).err = 0#3 := rfl
@[simp] theorem State.afterReset_errinfo (s : State) : (s.afterReset).errinfo = Config.freeErrinfo s.draws := rfl
@[simp] theorem State.afterReset_pos (s : State) : (s.afterReset).pos = 0 := rfl
@[simp] theorem State.afterReset_trace (s : State) : (s.afterReset).trace = [] := rfl
@[simp] theorem State.afterReset_readData (s : State) : (s.afterReset).readData = 0#16 := rfl
@[simp] theorem State.afterReset_sampleOut (s : State) : (s.afterReset).sampleOut = 0#16 := rfl
@[simp] theorem State.afterReset_rowAddrOut (s : State) : (s.afterReset).rowAddrOut = 0 := rfl
@[simp] theorem State.afterReset_ports (s : State) : (s.afterReset).ports = s.ports := rfl
@[simp] theorem State.afterReset_bus (s : State) : (s.afterReset).bus = if s.state = Code.xfer then s.answers.tail else s.bus := rfl
@[simp] theorem State.afterReset_busLoop (s : State) : (s.afterReset).busLoop = s.busLoop := rfl
@[simp] theorem State.afterReset_draws (s : State) : (s.afterReset).draws = s.draws + 1 := rfl

/-! ### The end of CLASSIFY -/

@[simp] theorem State.classifyAs_cfg (s : State) (d : Bool) : (s.classifyAs d).cfg = s.cfg := by
  cases d <;> rfl
@[simp] theorem State.classifyAs_crc (s : State) (d : Bool) : (s.classifyAs d).crc = s.crc := by
  cases d <;> rfl
@[simp] theorem State.classifyAs_seq (s : State) (d : Bool) : (s.classifyAs d).seq = s.seq := by
  cases d <;> rfl
@[simp] theorem State.classifyAs_rxcrc (s : State) (d : Bool) : (s.classifyAs d).rxcrc = s.rxcrc := by
  cases d <;> rfl
@[simp] theorem State.classifyAs_iter (s : State) (d : Bool) : (s.classifyAs d).iter = s.iter := by
  cases d <;> rfl
@[simp] theorem State.classifyAs_pkt (s : State) (d : Bool) : (s.classifyAs d).pkt = s.pkt := by
  cases d <;> rfl
@[simp] theorem State.classifyAs_table (s : State) (d : Bool) : (s.classifyAs d).table = s.table := by
  cases d <;> rfl
@[simp] theorem State.classifyAs_frame (s : State) (d : Bool) : (s.classifyAs d).frame = s.frame := by
  cases d <;> rfl
@[simp] theorem State.classifyAs_run (s : State) (d : Bool) : (s.classifyAs d).run = s.run := by
  cases d <;> rfl
@[simp] theorem State.classifyAs_cs (s : State) (d : Bool) : (s.classifyAs d).cs = s.cs := by
  cases d <;> rfl
@[simp] theorem State.classifyAs_err (s : State) (d : Bool) : (s.classifyAs d).err = s.err := by
  cases d <;> rfl
@[simp] theorem State.classifyAs_errinfo (s : State) (d : Bool) : (s.classifyAs d).errinfo = s.errinfo := by
  cases d <;> rfl
@[simp] theorem State.classifyAs_pos (s : State) (d : Bool) : (s.classifyAs d).pos = s.pos := by
  cases d <;> rfl
@[simp] theorem State.classifyAs_readData (s : State) (d : Bool) : (s.classifyAs d).readData = s.readData := by
  cases d <;> rfl
@[simp] theorem State.classifyAs_sampleOut (s : State) (d : Bool) : (s.classifyAs d).sampleOut = s.sampleOut := by
  cases d <;> rfl
@[simp] theorem State.classifyAs_rowAddrOut (s : State) (d : Bool) : (s.classifyAs d).rowAddrOut = s.rowAddrOut := by
  cases d <;> rfl
@[simp] theorem State.classifyAs_ports (s : State) (d : Bool) : (s.classifyAs d).ports = s.ports := by
  cases d <;> rfl
@[simp] theorem State.classifyAs_bus (s : State) (d : Bool) : (s.classifyAs d).bus = s.bus := by
  cases d <;> rfl
@[simp] theorem State.classifyAs_busLoop (s : State) (d : Bool) : (s.classifyAs d).busLoop = s.busLoop := by
  cases d <;> rfl
@[simp] theorem State.classifyAs_draws (s : State) (d : Bool) : (s.classifyAs d).draws = s.draws + 1 := by
  cases d <;> rfl

@[simp] theorem State.classifyAs_trace_discard (s : State) :
    (s.classifyAs true).trace = s.trace ++ [TraceEvent.discard s.pos] := rfl
@[simp] theorem State.classifyAs_trace_data (s : State) : (s.classifyAs false).trace = s.trace := rfl
@[simp] theorem State.classifyAs_state_discard (s : State) : (s.classifyAs true).state = Code.ipoll := rfl
@[simp] theorem State.classifyAs_state_data (s : State) : (s.classifyAs false).state = Code.seqx := rfl

/-! ### Moving past a fetched operation -/

@[simp] theorem State.consume_cfg (s : State) : s.consume.cfg = s.cfg := rfl
@[simp] theorem State.consume_crc (s : State) : s.consume.crc = s.crc := rfl
@[simp] theorem State.consume_seq (s : State) : s.consume.seq = s.seq := rfl
@[simp] theorem State.consume_rxcrc (s : State) : s.consume.rxcrc = s.rxcrc := rfl
@[simp] theorem State.consume_iter (s : State) : s.consume.iter = s.iter := rfl
@[simp] theorem State.consume_pkt (s : State) : s.consume.pkt = s.pkt := rfl
@[simp] theorem State.consume_table (s : State) : s.consume.table = s.table := rfl
@[simp] theorem State.consume_frame (s : State) : s.consume.frame = s.frame := rfl
@[simp] theorem State.consume_state (s : State) : s.consume.state = s.state := rfl
@[simp] theorem State.consume_run (s : State) : s.consume.run = s.run := rfl
@[simp] theorem State.consume_cs (s : State) : s.consume.cs = s.cs := rfl
@[simp] theorem State.consume_err (s : State) : s.consume.err = s.err := rfl
@[simp] theorem State.consume_errinfo (s : State) : s.consume.errinfo = s.errinfo := rfl
@[simp] theorem State.consume_pos (s : State) : s.consume.pos = s.pos := rfl
@[simp] theorem State.consume_trace (s : State) : s.consume.trace = s.trace := rfl
@[simp] theorem State.consume_readData (s : State) : s.consume.readData = s.readData := rfl
@[simp] theorem State.consume_sampleOut (s : State) : s.consume.sampleOut = s.sampleOut := rfl
@[simp] theorem State.consume_rowAddrOut (s : State) : s.consume.rowAddrOut = s.rowAddrOut := rfl
@[simp] theorem State.consume_ports (s : State) : s.consume.ports = s.ports.tail := rfl
@[simp] theorem State.consume_busLoop (s : State) : s.consume.busLoop = s.busLoop := rfl
@[simp] theorem State.consume_draws (s : State) : s.consume.draws = s.draws := rfl

/-- The fetch takes an answer from the stream only where it takes a packet whole. -/
theorem State.consume_bus_of_not_packet (s : State) (h : ∀ p, s.fetch ≠ .packet p) : s.consume.bus = s.bus := by
  show (match s.fetch with | .packet _ => s.answers.tail | _ => s.bus) = s.bus
  split
  · exact absurd ‹_› (h _)
  · rfl

theorem State.consume_bus_of_packet (s : State) {p : List Byte} (h : s.fetch = .packet p) :
    s.consume.bus = s.answers.tail := by
  show (match s.fetch with | .packet _ => s.answers.tail | _ => s.bus) = s.answers.tail
  rw [h]

end Sys2Proof.Machine
end

