-- ==== Sys2Proof/Laws/Ops.lean ====
section
/-! SUPPORT. What each shared operation can do, said once: sequencing, fetching and stopping, one step, operands,
the error record. -/

namespace Sys2Proof.Machine

/-! ### Sequencing -/

@[simp] theorem andThen_next (s : State) (f : State → Result) : andThen (.next s) f = f s := rfl

@[simp] theorem andThen_fault (e : Fault) (f : State → Result) : andThen (.fault e) f = .fault e := rfl

@[simp] theorem andThen_refused (e : Refusal) (f : State → Result) : andThen (.refused e) f = .refused e := rfl

/-- A sequence answers a next state exactly if its first part does and its second part does from there. -/
theorem andThen_eq_next {r : Result} {f : State → Result} {t : State} :
    andThen r f = .next t ↔ ∃ s, r = .next s ∧ f s = .next t := by
  cases r <;> simp [andThen]

theorem andThen_assoc (r : Result) (f g : State → Result) :
    andThen (andThen r f) g = andThen r (fun s => andThen (f s) g) := by
  cases r <;> rfl

theorem whenAt_of_eq {code : BitVec 5} {f : State → Result} {s : State} (h : s.state = code) :
    whenAt code f s = f s := if_pos h

theorem whenAt_of_ne {code : BitVec 5} {f : State → Result} {s : State} (h : s.state ≠ code) :
    whenAt code f s = .next s := if_neg h

/-- A guarded part either runs at its code or leaves the state as it is. -/
theorem whenAt_eq_next {code : BitVec 5} {f : State → Result} {s t : State} :
    whenAt code f s = .next t ↔ (s.state = code ∧ f s = .next t) ∨ (s.state ≠ code ∧ s = t) := by
  unfold whenAt
  split <;> simp_all

/-! ### Fetching -/

/-- With no input to come the operation fetched is the one `STATE` names (R19). -/
theorem State.fetch_of_ports_nil {s : State} (h : s.ports = []) : s.fetch = .seq s.state := by
  unfold State.fetch
  rw [h]

/-- What each input brings in any state (R69, R73, R125; log entry 7). -/
theorem State.fetch_of_cmd {s : State} {c : BitVec 2} {rest : List PortSample} (h : s.ports = .cmd c :: rest) :
    s.fetch = .cmd c := by
  unfold State.fetch
  rw [h]

theorem State.fetch_of_cancel {s : State} {l : BitVec 1} {rest : List PortSample} (h : s.ports = .cancel l :: rest) :
    s.fetch = if l = 1#1 then .cancel 1#1 else .seq s.state := by
  unfold State.fetch
  rw [h]
  split <;> simp_all

theorem State.fetch_of_rst {s : State} {l : BitVec 1} {rest : List PortSample} (h : s.ports = .rst l :: rest) :
    s.fetch = if l = 1#1 then .rst 1#1 else .seq s.state := by
  unfold State.fetch
  rw [h]
  split <;> simp_all

theorem State.fetch_of_frameAddr {s : State} {a : BitVec 13} {rest : List PortSample}
    (h : s.ports = .frameAddr a :: rest) : s.fetch = .frameAddr a := by
  unfold State.fetch
  rw [h]

theorem State.fetch_of_engine {s : State} {e : BitVec 2} {b : Byte} {v : Half} {rest : List PortSample}
    (h : s.ports = .engine e b v :: rest) : s.fetch = .engine e b v := by
  unfold State.fetch
  rw [h]

/-- Under `take` a transfer in flight that is answered with a packet is served by that packet (log entry 9). -/
theorem State.fetch_of_take {s : State} {p : List Byte} {rest : List PortSample} {more : List Answer}
    (h : s.ports = .take :: rest) (hs : s.state = Code.xfer) (ha : s.answers = .ok p :: more) : s.fetch = .packet p := by
  unfold State.fetch
  rw [h]
  simp only [ha]
  exact if_pos hs

/-- Elsewhere `take` is as quiet. -/
theorem State.fetch_of_take_quiet {s : State} {rest : List PortSample} (h : s.ports = .take :: rest)
    (hn : s.state ≠ Code.xfer ∨ ∀ p more, s.answers ≠ .ok p :: more) : s.fetch = .seq s.state := by
  unfold State.fetch
  rw [h]
  rcases ha : s.answers with _ | ⟨⟨p⟩ | ⟨t⟩, more⟩
  · rfl
  · exact if_neg (hn.resolve_right fun hn => hn p more ha)
  · rfl

/-- Where the ports are quiet for ever, moving past an operation changes nothing. -/
theorem State.consume_of_ports_nil {s : State} (h : s.ports = []) : s.consume = s := by
  have hb : s.consume.bus = s.bus :=
    s.consume_bus_of_not_packet fun p => by rw [State.fetch_of_ports_nil h]; exact fun e => nomatch e
  have hp : s.consume.ports = s.ports := by rw [State.consume_ports, h]; rfl
  have e : s.consume = { s with ports := s.consume.ports, bus := s.consume.bus } := rfl
  rw [e, hb, hp]

/-- When the block takes a step at all. -/
theorem State.stop_eq_none {s : State} :
    s.stop = none ↔ s.cfg.wf = true ∧ s.state.toNat ≤ 16 ∧ s.err.toNat ≤ 3 ∧
      ((∃ e b v, s.fetch = .engine e b v) → s.cfg.engineAlone = true) := by
  unfold State.stop
  by_cases h1 : s.cfg.wf = false
  · simp [h1]
  by_cases h2 : 16 < s.state.toNat
  · simp [h1, h2]
  by_cases h3 : 3 < s.err.toNat
  · simp [h1, h2, h3]
  have hw : s.cfg.wf = true := by simpa using h1
  simp only [h1, h2, h3, if_false]
  cases hf : s.fetch with
  | engine e b v =>
    by_cases ha : s.cfg.engineAlone = true
    · simp [ha]
      omega
    · simp [ha]
  | _ =>
    simp
    omega

/-! ### One step -/

/-- A step that answers a next state performed the operation it decoded (R9, R19). -/
theorem step_eq_next {s t : State} :
    step s = .next t ↔ s.stop = none ∧ ∃ i, decode s.cfg s.fetch = .ok i ∧ exec i s.consume = .next t := by
  unfold step
  cases hs : s.stop with
  | some r => simp
  | none =>
    cases hd : decode s.cfg s.fetch with
    | ok i => simp
    | error r => simp

/-- A step from a state that does not stop and whose word decodes. -/
theorem step_of_decode {s : State} {i : Instr} (hs : s.stop = none) (hd : decode s.cfg s.fetch = .ok i) :
    step s = exec i s.consume := by
  simp [step, hs, hd]

/-- A `STATE` code names a micro-operation exactly if it is at most 16 (R68). -/
theorem decodeState_isOk (code : BitVec 5) : (decodeState code).isOk = decide (code.toNat ≤ 16) := by
  revert code
  decide

/-! ### Operands -/

theorem State.pktByte_of_read {s : State} {i : Nat} {b : Byte} (h : s.pkt.read i = some b) : s.pktByte i = b := by
  simp [State.pktByte, h]

/-- A packet that stands in `PKT` is what `MemRead(PKT, 0, n)` gives (R36). -/
theorem State.pktBytes_of_reads {s : State} {p : List Byte} {n : Nat} (hn : p.length = n)
    (h : ∀ i, i < n → s.pkt.read i = p[i]?) : s.pktBytes 0 n = p := by
  apply List.ext_getElem
  · simp [State.pktBytes, hn]
  · intro i h1 h2
    have hi : i < n := by omega
    simp only [State.pktBytes, List.getElem_map, List.getElem_range, Nat.zero_add]
    exact State.pktByte_of_read (by rw [h i hi, List.getElem?_eq_getElem h2])

/-- The bytes of a whole packet do not depend on the draw counter. -/
theorem State.pktByte_congr {s t : State} {i : Nat} (hp : s.pkt = t.pkt) (h : ∃ b, s.pkt.read i = some b) :
    s.pktByte i = t.pktByte i := by
  obtain ⟨b, hb⟩ := h
  rw [State.pktByte_of_read hb, State.pktByte_of_read (hp ▸ hb)]

/-- In a full packet buffer the bytes read do not depend on the draw counter. -/
theorem State.pktByte_of_full {s t : State} {n i : Nat} (hp : t.pkt = s.pkt) (hf : s.pkt.full n = true) (hi : i < n) :
    t.pktByte i = s.pktByte i :=
  State.pktByte_congr hp (by rw [hp]; exact (Memory.full_iff _ _).1 hf i hi)

theorem State.pktBytes_of_full {s t : State} {n : Nat} (hp : t.pkt = s.pkt) (hf : s.pkt.full n = true) :
    t.pktBytes 0 n = s.pktBytes 0 n :=
  List.map_congr_left fun a ha => State.pktByte_of_full hp hf (by simpa using ha)

/-- The header word of a packet that stands in `PKT` (R55). -/
theorem State.header_of_pkt {s : State} {p : List Byte} (hl : 2 ≤ p.length) (h : s.pkt = Memory.ofList 0 p) :
    s.header = headerOfBytes p := by
  have e : ∀ i, i < p.length → s.pktByte i = p.getD i 0#8 := fun i hi =>
    State.pktByte_of_read (by rw [h, Memory.read_ofList_zero, List.getD_eq_getElem?_getD, List.getElem?_eq_getElem hi]; rfl)
  rw [State.header, e 0 (by omega), e 1 (by omega)]
  rfl

/-! ### Two bytes of a 16-bit value -/

@[simp] theorem joinBytes_high (a b : Byte) : (joinBytes a b).extractLsb' 8 8 = a := by
  apply BitVec.eq_of_getLsbD_eq
  intro i hi
  simp only [joinBytes, BitVec.getLsbD_extractLsb', hi, decide_true, Bool.true_and]
  rw [BitVec.getLsbD_append, if_neg (by omega), Nat.add_sub_cancel_left]

@[simp] theorem joinBytes_low (a b : Byte) : (joinBytes a b).extractLsb' 0 8 = b := by
  apply BitVec.eq_of_getLsbD_eq
  intro i hi
  simp only [joinBytes, BitVec.getLsbD_extractLsb', hi, decide_true, Bool.true_and]
  rw [BitVec.getLsbD_append, if_pos (by omega), Nat.zero_add]

/-- A 16-bit value is its two bytes joined. -/
@[simp] theorem joinBytes_split (h : Half) : joinBytes (h.extractLsb' 8 8) (h.extractLsb' 0 8) = h := by
  apply BitVec.eq_of_getLsbD_eq
  intro i hi
  simp only [joinBytes, BitVec.getLsbD_append, BitVec.getLsbD_extractLsb']
  by_cases h8 : i < 8
  · simp [h8]
  · simp [h8, show i - 8 < 8 by omega, show 8 + (i - 8) = i by omega]

/-! ### The configuration and the frame -/

/-- The two relations of R3. -/
theorem Config.wf_iff (c : Config) : c.wf = true ↔ c.pktLen = 2 + 2 + 2 * c.cols ∧ c.rows ≤ 4096 := by
  simp [Config.wf, Nat.ble_eq, Config.hdrLen, Config.csumLen]

/-- A row lies inside the frame (R110). -/
theorem cellAddress_row_le {c : Config} {r : Nat} (h : r < c.rows) : cellAddress c r 0 + c.cols ≤ frameCells c := by
  have e : (r + 1) * c.cols ≤ c.rows * c.cols := Nat.mul_le_mul_right _ h
  rw [Nat.add_mul] at e
  simp only [cellAddress, frameCells]
  omega

/-! ### The error record -/

@[simp] theorem errExpected_pack (e c : Half) (q : SeqNum) : errExpected (packErrinfo e c q) = e := by
  apply BitVec.eq_of_getLsbD_eq
  intro i hi
  simp only [errExpected, packErrinfo, BitVec.getLsbD_extractLsb', BitVec.getLsbD_append, hi, decide_true,
    Bool.true_and]
  rw [if_neg (by omega), if_neg (by omega)]
  congr 1
  omega

@[simp] theorem errComputed_pack (e c : Half) (q : SeqNum) : errComputed (packErrinfo e c q) = c := by
  apply BitVec.eq_of_getLsbD_eq
  intro i hi
  simp only [errComputed, packErrinfo, BitVec.getLsbD_extractLsb', BitVec.getLsbD_append, hi, decide_true,
    Bool.true_and]
  rw [if_neg (by omega), if_pos (by omega)]
  congr 1
  omega

@[simp] theorem errSeq_pack (e c : Half) (q : SeqNum) : errSeq (packErrinfo e c q) = q := by
  apply BitVec.eq_of_getLsbD_eq
  intro i hi
  simp only [errSeq, packErrinfo, BitVec.getLsbD_extractLsb', BitVec.getLsbD_append, hi, decide_true, Bool.true_and,
    Nat.zero_add, if_true]

@[simp] theorem lowMask_getLsbD (n i : Nat) : (lowMask n).getLsbD i = (decide (i < 16) && decide (i < n)) := by
  simp [lowMask, BitVec.getLsbD_ofNat, Nat.testBit_two_pow_sub_one]

/-- The bits of a transport code: those of the answer, as many as the configuration gives a code (R72). -/
theorem transportCode_getLsbD (c : Config) (t : TransportCode) (i : Nat) :
    (transportCode c t).getLsbD i = (t.getLsbD i && decide (i < c.tcodeBits)) := by
  have h16 : (c.tcodeBits : Nat) < 17 := c.tcodeBits.isLt
  simp only [transportCode, BitVec.getLsbD_and, lowMask_getLsbD]
  by_cases hi : i < c.tcodeBits
  · simp [hi, show i < 16 by omega]
  · simp [hi]

/-- In the low bits of `EXPECTED`, eight or as many as a wider code has, the transport code stands, whatever the free bits are
(R132). -/
theorem errExpected_transport (c : Config) (d : Nat) (t : TransportCode) {i : Nat}
    (h : i < max 8 (c.tcodeBits : Nat)) :
    (errExpected (transportErrinfo c d t)).getLsbD i = (t.getLsbD i && decide (i < c.tcodeBits)) := by
  have h16 : (c.tcodeBits : Nat) < 17 := c.tcodeBits.isLt
  have hi : i < 16 := by omega
  simp only [errExpected, transportErrinfo, BitVec.getLsbD_extractLsb', BitVec.getLsbD_append, hi, decide_true,
    Bool.true_and]
  rw [if_neg (by omega), show 28 + i - 28 = i by omega]
  simp only [BitVec.getLsbD_or, BitVec.getLsbD_and, BitVec.getLsbD_not, lowMask_getLsbD, transportCode_getLsbD, hi, h,
    decide_true, Bool.true_and, Bool.not_true, Bool.and_false, Bool.or_false]

/-! ### The stream -/

/-- As long as `bus` lists an answer, it is the next one. -/
theorem State.answers_of_bus {s : State} {a : Answer} {rest : List Answer} (h : s.bus = a :: rest) :
    s.answers = a :: rest := by
  unfold State.answers
  rw [h]

/-- Once `bus` is used up, the answers that repeat come from their start. -/
theorem State.answers_of_bus_nil {s : State} (h : s.bus = []) : s.answers = s.busLoop := by
  unfold State.answers
  rw [h]

/-- No answer comes exactly where none is listed and none repeats. -/
theorem State.answers_eq_nil {s : State} : s.answers = [] ↔ s.bus = [] ∧ s.busLoop = [] := by
  unfold State.answers
  split <;> simp_all

/-- What the transport answers next is listed somewhere in the stream. -/
theorem State.mem_of_mem_answers {s : State} {a : Answer} (h : a ∈ s.answers) : a ∈ s.bus ++ s.busLoop := by
  unfold State.answers at h
  split at h
  · exact List.mem_append_right _ h
  · rw [‹s.bus = _›]
    exact List.mem_append_left _ h

end Sys2Proof.Machine
end

