-- ==== Sys2Proof/Laws/Step.lean ====
section
/-! SUPPORT. What one step can do, said once: the operation it performs and what that says of the state it left. -/

namespace Sys2Proof.Machine

/-- What it takes for a fetch to bring operation `i`: a micro-operation is the one `STATE` names, a packet answers the transfer
in flight and is of its class, a host or engine operation comes on its input, and a composite is never fetched. -/
def State.Brings (s : State) (i : Instr) : Prop :=
  match i with
  | .discard p => s.fetch = .packet p ∧ s.state = Code.xfer ∧ DiscardPacket s.cfg p ∧ ∃ rest, s.answers = .ok p :: rest
  | .data p => s.fetch = .packet p ∧ s.state = Code.xfer ∧ DataPacket s.cfg p ∧ ∃ rest, s.answers = .ok p :: rest
  | .crcHold | .crcByte _ | .crcInit _ | .crcRsvd => ∃ e b v, s.fetch = .engine e b v

  | .idle => s.fetch = .seq Code.idle ∧ s.state = Code.idle
  | .selected => s.fetch = .seq Code.selected ∧ s.state = Code.selected
  | .opoll => s.fetch = .seq Code.opoll ∧ s.state = Code.opoll
  | .ipoll => s.fetch = .seq Code.ipoll ∧ s.state = Code.ipoll
  | .xfer => s.fetch = .seq Code.xfer ∧ s.state = Code.xfer
  | .classify => s.fetch = .seq Code.classify ∧ s.state = Code.classify
  | .seqx => s.fetch = .seq Code.seqx ∧ s.state = Code.seqx
  | .crcx => s.fetch = .seq Code.crcx ∧ s.state = Code.crcx
  | .canon => s.fetch = .seq Code.canon ∧ s.state = Code.canon
  | .crcrun => s.fetch = .seq Code.crcrun ∧ s.state = Code.crcrun
  | .compare => s.fetch = .seq Code.compare ∧ s.state = Code.compare
  | .seqchk => s.fetch = .seq Code.seqchk ∧ s.state = Code.seqchk
  | .store => s.fetch = .seq Code.store ∧ s.state = Code.store
  | .next => s.fetch = .seq Code.next ∧ s.state = Code.next
  | .done => s.fetch = .seq Code.done ∧ s.state = Code.done
  | .cancelled => s.fetch = .seq Code.cancelled ∧ s.state = Code.cancelled
  | .fault => s.fetch = .seq Code.fault ∧ s.state = Code.fault
  | .nop | .select | .start | .cmdRsvd => ∃ c, s.fetch = .cmd c
  | .cancel => s.fetch = .cancel 1#1
  | .reset => s.fetch = .rst 1#1
  | .frameRead a => s.fetch = .frameAddr a
  | .crcBuf _ _ | .sync | .process | .sampleDecode _ | .rowAddr _ | .capture => False

/-- A sequencer word fetched is the code in `STATE` (R19). -/
theorem State.fetch_seq {s : State} {code : BitVec 5} (h : s.fetch = .seq code) : code = s.state := by
  unfold State.fetch at h
  repeat' split at h
  all_goals first
    | exact (InstrWord.seq.inj h).symm
    | contradiction

/-- A packet fetched is the answer of the transfer in flight (R26, R87). -/
theorem State.fetch_packet {s : State} {p : List Byte} (h : s.fetch = .packet p) :
    s.state = Code.xfer ∧ ∃ rest, s.answers = .ok p :: rest := by
  unfold State.fetch at h
  repeat' split at h
  all_goals first
    | contradiction
    | (cases InstrWord.packet.inj h
       exact ⟨‹_›, _, ‹_›⟩)

/-- A `STATE` code that decodes to a micro-operation is that operation's encoding (R68). -/
theorem encode_of_decodeState {code : BitVec 5} {i : Instr} (h : decodeState code = .ok i) :
    encode i = some (.seq code) := by
  have all : ∀ c : BitVec 5, (match decodeState c with
    | .ok j => decide (encode j = some (.seq c))
    | .error _ => true) = true := by decide
  have := all code
  rw [h] at this
  exact of_decide_eq_true this

/-- Whatever a fetched word decodes to, the fetch brings it. -/
theorem State.brings_of_decode {s : State} {i : Instr} (h : decode s.cfg s.fetch = .ok i) : s.Brings i := by
  cases hf : s.fetch with
  | seq code =>
    have hc := State.fetch_seq hf
    rw [hf] at h
    have he := encode_of_decodeState h
    rw [hc] at he hf
    cases i <;> simp only [encode, Option.some.injEq, InstrWord.seq.injEq, reduceCtorEq] at he
    all_goals exact ⟨hf.trans (congrArg InstrWord.seq he.symm), he.symm⟩
  | packet p =>
    obtain ⟨hs, hb⟩ := State.fetch_packet hf
    rw [hf] at h
    simp only [decode, decodePacket] at h
    split at h
    · cases hm : carriesMarker s.cfg (headerOfBytes p) <;> simp only [hm, Except.ok.injEq] at h <;> subst h
      · exact ⟨hf, hs, ⟨‹_›, hm⟩, hb⟩
      · exact ⟨hf, hs, ⟨‹_›, hm⟩, hb⟩
    · exact nomatch h
  | cmd c =>
    rw [hf] at h
    simp only [decode, Except.ok.injEq, decodeCmd] at h
    split at h <;> subst h <;> exact ⟨c, hf⟩
  | cancel line =>
    rw [hf] at h
    simp only [decode] at h
    split at h
    · rename_i hl
      subst hl
      cases Except.ok.inj h
      exact hf
    · exact nomatch h
  | rst line =>
    rw [hf] at h
    simp only [decode] at h
    split at h
    · rename_i hl
      subst hl
      cases Except.ok.inj h
      exact hf
    · exact nomatch h
  | frameAddr a =>
    rw [hf] at h
    cases Except.ok.inj h
    exact hf
  | engine e b v =>
    rw [hf] at h
    simp only [decode, Except.ok.injEq, decodeEngine] at h
    split at h <;> subst h <;> exact ⟨e, b, v, hf⟩

/-- One step that answers a next state: the block was in a state it steps from, and performed an operation its fetch brings. -/
theorem step_next_cases {s t : State} (h : step s = .next t) :
    s.stop = none ∧ ∃ i, s.Brings i ∧ exec i s.consume = .next t := by
  obtain ⟨hs, i, hd, he⟩ := step_eq_next.1 h
  exact ⟨hs, i, State.brings_of_decode hd, he⟩

/-- With quiet inputs a step performs the micro-operation of `STATE` and nothing else (R19). -/
theorem step_of_quiet {s : State} {i : Instr} {code : BitVec 5} (hw : s.cfg.wf = true) (he : s.err.toNat ≤ 3)
    (hp : s.ports = []) (hc : s.state = code) (hd : decodeState code = .ok i) : step s = exec i s := by
  have hf := State.fetch_of_ports_nil hp
  have h16 : s.state.toNat ≤ 16 := by
    have e := decodeState_isOk code
    rw [hd] at e
    rw [hc]
    exact of_decide_eq_true e.symm
  have hs : s.stop = none :=
    State.stop_eq_none.2 ⟨hw, h16, he, by rintro ⟨e, b, v, h⟩; rw [hf] at h; exact nomatch h⟩
  rw [step_of_decode hs (i := i) (by rw [hf, hc]; exact hd), State.consume_of_ports_nil hp]

end Sys2Proof.Machine
end

