-- ==== Sys2Proof/Laws/Composite.lean ====
section
/-! SUPPORT. The composites said once: PROCESS, the state its four straight micro-operations lead to and the three ways it
ends; and one turn of the discard-retry loop, its four ways. -/

namespace Sys2Proof.Machine

/-- The state after SEQX, CRCX, CANON and CRCRUN (R95 to R98). -/
def State.prepared (s : State) : State :=
  let s1 := { s with seq := seqOfHeader s.cfg s.header, state := Code.crcx, draws := s.draws + 1 }
  let s2 := { s1 with rxcrc := s1.transmittedChecksum, state := Code.canon, draws := s1.draws + 1 }
  let s3 := { s2 with pkt := s2.canonicalPkt, state := Code.crcrun, draws := s2.draws + 1 }
  { s3 with
    crc := checksum s3.table 0#16 (s3.pktBytes 0 s3.cfg.pktLen)
    state := Code.compare
    draws := s3.draws + 1 }

/-- PROCESS ends in one of three ways: the row stored and counted, SeqOutOfRange, or ChecksumMismatch (R94, R139). -/
theorem execProcess_eq (s : State) :
    execProcess s =
      if s.prepared.rxcrc = s.prepared.crc then
        if s.prepared.seq.toNat < s.cfg.rows then
          .next { s.prepared with
            frame := s.frame.writeFrom (cellAddress s.cfg s.prepared.seq.toNat 0)
              ({ s.prepared with state := Code.store }).samples
            trace := s.trace ++ [TraceEvent.rowWrite s.pos s.prepared.seq.toNat]
            iter := s.iter + 1
            state := Code.opoll
            draws := s.prepared.draws + 1 }
        else .next (s.prepared.goto Code.seqchk).raiseSeqRange
      else .next s.prepared.raiseChecksum := by
  have h : execProcess s = andThen (execCompare s.prepared) (whenAt Code.seqchk fun s => andThen (execSeqchk s) <|
      whenAt Code.store fun s => andThen (execStore s) execNext) := rfl
  rw [h]
  unfold execCompare
  simp only [State.crcMatch, beq_iff_eq, andThen_next]
  split
  · rw [whenAt_of_eq (State.goto_state _ _)]
    unfold execSeqchk
    simp only [State.seqOk, Nat.blt_eq, andThen_next]
    have e : (s.prepared.goto Code.seqchk).seq.toNat < (s.prepared.goto Code.seqchk).cfg.rows ↔
        s.prepared.seq.toNat < s.cfg.rows := Iff.rfl
    simp only [e]
    split
    · rename_i hq
      rw [whenAt_of_eq (State.goto_state _ _)]
      unfold execStore
      rw [if_pos (show State.seqOk _ = true by simp only [State.seqOk, Nat.blt_eq]; exact hq)]
      rfl
    · rw [whenAt_of_ne (by simp; decide)]
  · rw [whenAt_of_ne (by simp; decide)]

/-- PROCESS always answers a next state. -/
theorem execProcess_next (s : State) : ∃ t, execProcess s = .next t := by
  rw [execProcess_eq]
  split
  · split <;> exact ⟨_, rfl⟩
  · exact ⟨_, rfl⟩

/-! ### One turn of the discard-retry loop (R85) -/

/-- With `RUN = 0` the turn is Cancelled (R86, R143). -/
theorem syncRound_cancelled {s : State} (hr : s.run = false) : syncRound s = .next s.enterCancelled := by
  have e : execIpoll s = .next s.enterCancelled := by simp [execIpoll, hr]
  rw [syncRound, e, andThen_next, whenAt_of_ne (by simp; decide)]

/-- With no answer left the turn waits in XFER (R87). -/
theorem syncRound_waits {s : State} (hr : s.run = true) (hb : s.answers = []) : syncRound s = .next s.requestTransfer := by
  have e : execIpoll s = .next s.requestTransfer := by simp [execIpoll, hr]
  have e' : execXfer s.requestTransfer = .next s.requestTransfer := by
    unfold execXfer
    rw [show s.requestTransfer.answers = _ from hb]
  rw [syncRound, e, andThen_next, whenAt_of_eq (by rfl), e', andThen_next, whenAt_of_ne (by simp; decide)]

/-- A failed transfer ends the turn in TransportError (R88). -/
theorem syncRound_fails {s : State} {c : TransportCode} {rest : List Answer} (hr : s.run = true)
    (hb : s.answers = .err c :: rest) : syncRound s = .next ({ s.requestTransfer with bus := rest }.raiseTransport c) := by
  have e : execIpoll s = .next s.requestTransfer := by simp [execIpoll, hr]
  have e' : execXfer s.requestTransfer = .next ({ s.requestTransfer with bus := rest }.raiseTransport c) := by
    unfold execXfer
    rw [show s.requestTransfer.answers = _ from hb]
  rw [syncRound, e, andThen_next, whenAt_of_eq (by rfl), e', andThen_next,
    whenAt_of_ne (show Code.fault ≠ Code.classify by decide)]

/-- CLASSIFY on a packet just received (R87, R89). -/
theorem execClassify_receive {s : State} {p : List Byte} (hl : 2 ≤ p.length) :
    execClassify (s.receive p) = .next ((s.receive p).classifyAs (carriesMarker s.cfg (headerOfBytes p))) := by
  unfold execClassify State.isDiscard
  rw [State.header_of_pkt hl rfl]
  rfl

/-- A packet received is classified by its marker (R87, R89). -/
theorem syncRound_receives {s : State} {p : List Byte} {rest : List Answer} (hr : s.run = true)
    (hb : s.answers = .ok p :: rest) (hl : p.length = s.cfg.pktLen) (h2 : 2 ≤ p.length) :
    syncRound s = .next (({ s.requestTransfer with bus := rest }.receive p).classifyAs
      (carriesMarker s.cfg (headerOfBytes p))) := by
  have e : execIpoll s = .next s.requestTransfer := by simp [execIpoll, hr]
  have e' : execXfer s.requestTransfer = .next ({ s.requestTransfer with bus := rest }.receive p) := by
    unfold execXfer
    rw [show s.requestTransfer.answers = _ from hb]
    simp only
    rw [if_pos (show p.length = s.requestTransfer.cfg.pktLen from hl)]
  rw [syncRound, e, andThen_next, whenAt_of_eq (by rfl), e', andThen_next, whenAt_of_eq (by rfl), execClassify_receive h2]
  rfl

end Sys2Proof.Machine
end

