-- ==== Sys2Proof/Laws/PerInstr.lean ====
section
/-! SUPPORT. A statement made of every instruction, one lemma per constructor: what the decoder answers is well-formed.

FRAME.READ is the one exception: its 13-bit address can name no cell, and its meaning then refuses (R125). -/

namespace Sys2Proof.Laws.DecodedIsWellFormed

/-- Whatever word decodes to `i`, the operands of `i` are ones the spec gives it. -/
def Statement (i : Instr) : Prop :=
  ∀ (c : Config) (w : InstrWord), decode c w = .ok i → i.wf c = true ∨ ∃ a, i = .frameRead a

/-- A decoded instruction with a checked operand comes from a packet that passed the check. -/
theorem decode_wf {c : Config} {w : InstrWord} {i : Instr} (h : decode c w = .ok i) :
    i.wf c = true ∨ ∃ a, i = .frameRead a := by
  cases w with
  | seq code =>
    simp only [decode, decodeState] at h
    split at h <;> simp_all [Instr.wf] <;> (subst h; simp)
  | packet p =>
    simp only [decode, decodePacket] at h
    split at h
    · cases hm : carriesMarker c (headerOfBytes p) <;> simp only [hm, Except.ok.injEq] at h <;> subst h <;>
        simp_all [Instr.wf]
    · exact nomatch h
  | cmd k =>
    simp only [decode, Except.ok.injEq, decodeCmd] at h
    split at h <;> subst h <;> simp [Instr.wf]
  | cancel line =>
    simp only [decode] at h
    split at h
    · simp only [Except.ok.injEq] at h
      subst h
      simp [Instr.wf]
    · exact nomatch h
  | rst line =>
    simp only [decode] at h
    split at h
    · simp only [Except.ok.injEq] at h
      subst h
      simp [Instr.wf]
    · exact nomatch h
  | frameAddr a =>
    simp only [decode, Except.ok.injEq] at h
    exact .inr ⟨a, h.symm⟩
  | engine e b v =>
    simp only [decode, Except.ok.injEq, decodeEngine] at h
    split at h <;> subst h <;> simp [Instr.wf]

theorem discard (p : List Byte) : Statement (.discard p) := fun _ _ h => decode_wf h
theorem data (p : List Byte) : Statement (.data p) := fun _ _ h => decode_wf h
theorem crcHold : Statement .crcHold := fun _ _ h => decode_wf h
theorem crcByte (b : Byte) : Statement (.crcByte b) := fun _ _ h => decode_wf h
theorem crcInit (v : Half) : Statement (.crcInit v) := fun _ _ h => decode_wf h
theorem crcRsvd : Statement .crcRsvd := fun _ _ h => decode_wf h
theorem idle : Statement .idle := fun _ _ h => decode_wf h
theorem selected : Statement .selected := fun _ _ h => decode_wf h
theorem opoll : Statement .opoll := fun _ _ h => decode_wf h
theorem ipoll : Statement .ipoll := fun _ _ h => decode_wf h
theorem xfer : Statement .xfer := fun _ _ h => decode_wf h
theorem classify : Statement .classify := fun _ _ h => decode_wf h
theorem seqx : Statement .seqx := fun _ _ h => decode_wf h
theorem crcx : Statement .crcx := fun _ _ h => decode_wf h
theorem canon : Statement .canon := fun _ _ h => decode_wf h
theorem crcrun : Statement .crcrun := fun _ _ h => decode_wf h
theorem compare : Statement .compare := fun _ _ h => decode_wf h
theorem seqchk : Statement .seqchk := fun _ _ h => decode_wf h
theorem store : Statement .store := fun _ _ h => decode_wf h
theorem next : Statement .next := fun _ _ h => decode_wf h
theorem done : Statement .done := fun _ _ h => decode_wf h
theorem cancelled : Statement .cancelled := fun _ _ h => decode_wf h
theorem fault : Statement .fault := fun _ _ h => decode_wf h
theorem nop : Statement .nop := fun _ _ h => decode_wf h
theorem select : Statement .select := fun _ _ h => decode_wf h
theorem start : Statement .start := fun _ _ h => decode_wf h
theorem cmdRsvd : Statement .cmdRsvd := fun _ _ h => decode_wf h
theorem cancel : Statement .cancel := fun _ _ h => decode_wf h
theorem reset : Statement .reset := fun _ _ h => decode_wf h
theorem frameRead (a : BitVec 13) : Statement (.frameRead a) := fun _ _ h => decode_wf h
theorem crcBuf (initial : Half) (buffer : List Byte) : Statement (.crcBuf initial buffer) := fun _ _ h => decode_wf h
theorem sync : Statement .sync := fun _ _ h => decode_wf h
theorem process : Statement .process := fun _ _ h => decode_wf h
theorem sampleDecode (c : Nat) : Statement (.sampleDecode c) := fun _ _ h => decode_wf h
theorem rowAddr (c : Nat) : Statement (.rowAddr c) := fun _ _ h => decode_wf h
theorem capture : Statement .capture := fun _ _ h => decode_wf h

end Sys2Proof.Laws.DecodedIsWellFormed
end

