-- ==== Sys2Proof/Tests/Slice0.lean ====
section
/-! SUPPORT. Own tests: ill-formed terms, one written-out word per encoding, one step per operation on the vectors of
`95_test_vectors.md`, and for each statement with hypotheses a witness that meets them. -/

namespace Sys2Proof.Machine

/-! ### Helpers -/

/-- The next state of an answer, if it is one. -/
def nextOf (r : Result) : Option State :=
  match r with
  | .next s => some s
  | _ => none

/-- The refusal of an answer, if it is one. -/
def refusalOf (r : Result) : Option Refusal :=
  match r with
  | .refused e => some e
  | _ => none

/-- The fault of an answer, if it is one. -/
def faultOf (r : Result) : Option Fault :=
  match r with
  | .fault e => some e
  | _ => none

/-- The small deployment of `95_test_vectors.md` right after reset. -/
def small : State := { State.reset with cfg := Config.small }

/-- The small deployment in state `code`, the line asserted, a packet in `PKT`. -/
def holding (code : BitVec 5) (p : List Byte) : State :=
  { small with state := code, cs := true, pkt := Memory.ofList 0 p }

/-- The small deployment with a transfer in flight that the stream answers. -/
def flying (bus : List Answer) : State := { small with state := Code.xfer, cs := true, bus := bus }

/-- The small deployment in state `code`, the line asserted, with a stream that repeats `loop` for ever. -/
def endless (code : BitVec 5) (loop : List Answer) : State := { small with state := code, cs := true, busLoop := loop }

/-- Packet A of section 6: `DATA 0, [0001, 0002]`. -/
def packetA : List Byte := [0x00#8, 0x00#8, 0x79#8, 0xCE#8, 0x00#8, 0x01#8, 0x00#8, 0x02#8]

/-- Packet B of section 6: `DATA 1, [1234, ABCD]`. -/
def packetB : List Byte := [0x00#8, 0x10#8, 0xFC#8, 0x6F#8, 0x12#8, 0x34#8, 0xAB#8, 0xCD#8]

/-- Packet C of section 6: `DATA 2, [FFFF, 8000], flags=5`. -/
def packetC : List Byte := [0x00#8, 0x25#8, 0xEC#8, 0x6E#8, 0xFF#8, 0xFF#8, 0x80#8, 0x00#8]

/-- Packet D of section 6: `DISCARD`. -/
def packetD : List Byte := List.replicate 8 0xFF#8

/-- Packet D' of section 6: `DISCARD 000F`. -/
def packetD' : List Byte := [0x00#8, 0x0F#8, 0x00#8, 0x00#8, 0x00#8, 0x00#8, 0x00#8, 0x00#8]

/-- Packet Bx of section 6: B with byte 5 changed. -/
def packetBx : List Byte := packetB.set 5 0x35#8

/-- Packet O of section 6: `DATA 3, [0001, 0002]`. -/
def packetO : List Byte := [0x00#8, 0x30#8, 0xAF#8, 0x84#8, 0x00#8, 0x01#8, 0x00#8, 0x02#8]

/-- The answer is a next state that has the property. -/
def ends (r : Result) (p : State → Bool) : Bool := (nextOf r).any p

/-! ### Well-formedness refuses ill-formed terms -/

theorem test_wf_discard_length : Instr.wf Config.small (.discard (0xFF#8 :: packetD)) = false := by decide
theorem test_wf_discard_class : Instr.wf Config.small (.discard packetA) = false := by decide
theorem test_wf_data_length : Instr.wf Config.small (.data packetA.tail) = false := by decide
theorem test_wf_data_class : Instr.wf Config.small (.data packetD') = false := by decide
theorem test_wf_frameRead : Instr.wf Config.reference (.frameRead 4800#13) = false ∧
    Instr.wf Config.reference (.frameRead 4799#13) = true := by decide
theorem test_wf_sampleDecode : Instr.wf Config.reference (.sampleDecode 80) = false ∧
    Instr.wf Config.reference (.sampleDecode 79) = true := by decide
theorem test_wf_rowAddr : Instr.wf Config.reference (.rowAddr 80) = false ∧
    Instr.wf Config.reference (.rowAddr 79) = true := by decide
theorem test_wf_config_length : Config.wf { Config.reference with pktLen := 165 } = false := by decide
theorem test_wf_config_rows : Config.wf { Config.reference with rows := 4097 } = false ∧
    Config.wf { Config.reference with rows := 4096 } = true := by decide

/-! ### Decoding: every encoded operation by a word written out from the spec -/

/-- The seventeen codes of R68. -/
theorem test_decode_state_codes :
    decode Config.reference (.seq 0b00000#5) = .ok .idle ∧ decode Config.reference (.seq 0b00001#5) = .ok .selected ∧
    decode Config.reference (.seq 0b00010#5) = .ok .opoll ∧ decode Config.reference (.seq 0b00011#5) = .ok .ipoll ∧
    decode Config.reference (.seq 0b00100#5) = .ok .xfer ∧ decode Config.reference (.seq 0b00101#5) = .ok .classify ∧
    decode Config.reference (.seq 0b00110#5) = .ok .seqx ∧ decode Config.reference (.seq 0b00111#5) = .ok .crcx ∧
    decode Config.reference (.seq 0b01000#5) = .ok .canon ∧ decode Config.reference (.seq 0b01001#5) = .ok .crcrun ∧
    decode Config.reference (.seq 0b01010#5) = .ok .compare ∧ decode Config.reference (.seq 0b01011#5) = .ok .seqchk ∧
    decode Config.reference (.seq 0b01100#5) = .ok .store ∧ decode Config.reference (.seq 0b01101#5) = .ok .next ∧
    decode Config.reference (.seq 0b01110#5) = .ok .done ∧ decode Config.reference (.seq 0b01111#5) = .ok .cancelled ∧
    decode Config.reference (.seq 0b10000#5) = .ok .fault := by decide

/-- Codes 17 to 31 are refused by name (R68). -/
theorem test_decode_state_refused :
    ∀ k : BitVec 5, 17 ≤ k.toNat → decode Config.reference (.seq k) = .error (.stateCode k) := by decide

/-- The codes of `cmd`, `cancel`, `rst` and the read address (R69, R125). -/
theorem test_decode_host :
    decode Config.reference (.cmd 0b00#2) = .ok .nop ∧ decode Config.reference (.cmd 0b01#2) = .ok .select ∧
    decode Config.reference (.cmd 0b10#2) = .ok .start ∧ decode Config.reference (.cmd 0b11#2) = .ok .cmdRsvd ∧
    decode Config.reference (.cancel 1#1) = .ok .cancel ∧ decode Config.reference (.cancel 0#1) = .error .cancelLow ∧
    decode Config.reference (.rst 1#1) = .ok .reset ∧ decode Config.reference (.rst 0#1) = .error .rstLow ∧
    decode Config.reference (.frameAddr 0b1001010111111#13) = .ok (.frameRead 4799#13) := by decide

/-- The codes of `eop`, each with the data input it takes (R73). -/
theorem test_decode_engine :
    decode Config.reference (.engine 0b00#2 0x56#8 0xABCD#16) = .ok .crcHold ∧
    decode Config.reference (.engine 0b01#2 0x56#8 0xABCD#16) = .ok (.crcByte 0x56#8) ∧
    decode Config.reference (.engine 0b10#2 0x56#8 0xABCD#16) = .ok (.crcInit 0xABCD#16) ∧
    decode Config.reference (.engine 0b11#2 0x56#8 0xABCD#16) = .ok .crcRsvd := by decide

/-- Vectors V19, V22 and V25 as the first bytes of small packets (R62, R63), and a packet of the wrong length. -/
theorem test_decode_packets :
    decode Config.small (.packet [0x03#8, 0xBF#8, 1#8, 2#8, 3#8, 4#8, 5#8, 6#8]) =
      .ok (.discard [0x03#8, 0xBF#8, 1#8, 2#8, 3#8, 4#8, 5#8, 6#8]) ∧
    decode Config.small (.packet [0x03#8, 0xBE#8, 1#8, 2#8, 3#8, 4#8, 5#8, 6#8]) =
      .ok (.data [0x03#8, 0xBE#8, 1#8, 2#8, 3#8, 4#8, 5#8, 6#8]) ∧
    decode Config.small (.packet packetD') = .ok (.discard packetD') ∧
    decode Config.small (.packet packetA.tail) = .error (.packetLength 7) := by decide

/-- Vectors V27 and V27-L3: the header 0F00 is data in the default layout and a discard in L3. -/
theorem test_decode_layouts :
    carriesMarker Config.reference 0x0F00#16 = false ∧ carriesMarker Config.reference.withLayoutL3 0x0F00#16 = true ∧
    seqOfHeader Config.reference 0x0F00#16 = 240#12 ∧
    seqOfHeader Config.reference.withLayoutL3 0x303B#16 = 59#12 := by decide

/-- The host's numbering: one byte is a `STATE` code, two bytes are the header word of a packet of zeros (log entry 10). -/
theorem test_decodeTableWord :
    decodeTableWord 8 0x0C = some .store ∧ decodeTableWord 8 0x1F = none ∧
    decodeTableWord 16 0x000F = some (.discard (0x00#8 :: 0x0F#8 :: List.replicate 162 0#8)) ∧
    decodeTableWord 16 0x03B0 = some (.data (0x03#8 :: 0xB0#8 :: List.replicate 162 0#8)) := by decide +kernel

/-- The word is run by the very next step. -/
theorem test_withFetchWord :
    (nextOf (step (State.reset.withFetchWord 8 0x02))).map (fun t => t.state) = some Code.ipoll ∧
    (nextOf (step (State.reset.withFetchWord 16 0x000F))).map (fun t => (t.state, t.pos)) = some (Code.ipoll, 1) := by
  decide +kernel

/-! ### The checksum engine (section 2) -/

/-- The quick checks of R76. -/
theorem test_table : tableEntry crcTable 0x00#8 = 0x0000#16 ∧ tableEntry crcTable 0x01#8 = 0x1189#16 ∧
    tableEntry crcTable 0x80#8 = 0x8408#16 ∧ tableEntry crcTable 0xFF#8 = 0x0F78#16 := by decide +kernel
theorem test_crcHold : (nextOf (exec .crcHold { small with crc := 0x1234#16 })).map (fun t => t.crc) = some 0x1234#16 := by
  decide
/-- V11. -/
theorem test_crcByte_index_from_low_byte :
    (nextOf (exec (.crcByte 0x00#8) { small with crc := 0xFFFF#16 })).map (fun t => t.crc) = some 0x0F87#16 := by decide +kernel
/-- V13. -/
theorem test_crcByte_shift_and_table :
    (nextOf (exec (.crcByte 0x56#8) { small with crc := 0x1234#16 })).map (fun t => t.crc) = some 0x4006#16 := by decide +kernel
/-- V18. -/
theorem test_crcInit : (nextOf (exec (.crcInit 0xABCD#16) small)).map (fun t => t.crc) = some 0xABCD#16 := by decide
theorem test_crcRsvd : (nextOf (exec .crcRsvd { small with crc := 0x1234#16 })).map (fun t => t.crc) = some 0x1234#16 := by
  decide
/-- V9. -/
theorem test_crcBuf_check_value :
    (nextOf (exec (.crcBuf 0#16 [0x31#8, 0x32#8, 0x33#8, 0x34#8, 0x35#8, 0x36#8, 0x37#8, 0x38#8, 0x39#8]) small)).map
      (fun t => t.crc) = some 0x2189#16 := by decide +kernel
/-- V2: the empty buffer. -/
theorem test_crcBuf_empty : (nextOf (exec (.crcBuf 0x1234#16 []) small)).map (fun t => t.crc) = some 0x1234#16 := by decide

/-! ### The synchronizer -/

theorem test_ipoll_running :
    (nextOf (exec .ipoll (holding Code.ipoll packetA))).map (fun t => (t.state, t.pkt.read 0)) = some (Code.xfer, none) := by
  decide +kernel
/-- V47. -/
theorem test_ipoll_cancelled :
    (nextOf (exec .ipoll { holding Code.ipoll packetA with run := false })).map (fun t => (t.state, t.cs, t.err)) =
      some (Code.cancelled, false, 0#3) := by decide
/-- R87's example: every byte of the answer stands in `PKT`. -/
theorem test_xfer_ok :
    (nextOf (exec .xfer (flying [.ok packetD]))).map (fun t => (t.state, t.pos, t.pkt.read 7, t.bus.length)) =
      some (Code.classify, 1, some 0xFF#8, 0) := by decide +kernel
/-- V49. -/
theorem test_xfer_err :
    (nextOf (exec .xfer (flying [.err 4#16]))).map (fun t => (t.state, t.err, t.cs, t.pos)) =
      some (Code.fault, 1#3, false, 1) := by decide
/-- R28, R91: once the listed answers are used up, those that repeat come from their start, and come again. -/
theorem test_xfer_of_an_endless_stream :
    (nextOf (exec .xfer (endless Code.xfer [.err 3#16, .err 5#16]))).map (fun t => (t.bus, t.busLoop, t.answers.length)) =
      some ([.err 5#16], [.err 3#16, .err 5#16], 1) := by decide
/-- R72: a code has as many bits as the configuration says, and 4 names resource exhaustion. -/
theorem test_transport_code :
    transportCode Config.reference 0x104#16 = 0x004#16 ∧
    transportCode { Config.reference with tcodeBits := 16 } 0x104#16 = 0x104#16 ∧
    transportName Config.reference 0x0004#16 = .resourceExhaustion ∧ transportName Config.reference 0x00FF#16 = .other := by
  decide
/-- R148: the transmit side of a transfer carries `PKT_LEN` bytes of the `TX_FILL` the deployment names. -/
theorem test_tx_buffer :
    (txBuffer { Config.small with txFill := 0xA5#8 }).length = 8 ∧
    (txBuffer { Config.small with txFill := 0xA5#8 }).getD 7 0#8 = 0xA5#8 := by decide
/-- V19. -/
theorem test_classify_discard :
    (nextOf (exec .classify (holding Code.classify [0x03#8, 0xBF#8]))).map (fun t => (t.state, t.trace)) =
      some (Code.ipoll, [.discard 0]) := by decide
/-- V22. -/
theorem test_classify_data :
    (nextOf (exec .classify (holding Code.classify [0x03#8, 0xBE#8]))).map (fun t => (t.state, t.trace)) =
      some (Code.seqx, []) := by decide
/-- P1, iteration 1: two discards, then B. -/
theorem test_sync :
    (nextOf (exec .sync { holding Code.ipoll packetA with bus := [.ok packetD', .ok packetD, .ok packetB, .ok packetC] })).map
      (fun t => (t.state, t.pos, t.pkt.read 4, t.bus.length)) = some (Code.seqx, 3, some 0x12#8, 1) := by decide +kernel

/-- R91, R163: on discards without end SYNC never has an outcome, and control is left in the loop. -/
theorem test_sync_of_endless_discards :
    (nextOf (exec .sync (endless Code.ipoll [.ok packetD]))).map (fun t => (t.state, t.run, t.cs, discards t.trace)) =
      some (Code.ipoll, true, true, 2) := by decide +kernel

/-! ### The validator and the reassembler -/

/-- V21: the flag bits do not reach `SEQ`. -/
theorem test_seqx_flags :
    (nextOf (exec .seqx (holding Code.seqx [0x03#8, 0xB5#8]))).map (fun t => (t.seq, t.state)) = some (59#12, Code.crcx) := by
  decide
/-- V23. -/
theorem test_seqx_largest :
    (nextOf (exec .seqx (holding Code.seqx [0xFF#8, 0xF0#8]))).map (fun t => t.seq) = some 4095#12 := by decide
/-- V29. -/
theorem test_crcx :
    (nextOf (exec .crcx (holding Code.crcx [0x03#8, 0xB0#8, 0x90#8, 0xF1#8]))).map (fun t => (t.rxcrc, t.state)) =
      some (0x90F1#16, Code.canon) := by decide
/-- V29, the other byte order. -/
theorem test_crcx_swapped :
    (nextOf (exec .crcx { holding Code.crcx [0x03#8, 0xB0#8, 0x90#8, 0xF1#8] with
      cfg := { Config.small with csumBigEndian := false } })).map (fun t => t.rxcrc) = some 0xF190#16 := by decide
/-- R97's example. -/
theorem test_canon :
    (nextOf (exec .canon (holding Code.canon packetC))).map (fun t => (t.pkt, t.state)) =
      some (Memory.ofList 0 [0x00#8, 0x20#8, 0x00#8, 0x00#8, 0xFF#8, 0xFF#8, 0x80#8, 0x00#8], Code.crcrun) := by decide +kernel
/-- R98's example and V15. -/
theorem test_crcrun :
    (nextOf (exec .crcrun (holding Code.crcrun [0x00#8, 0x10#8, 0x00#8, 0x00#8, 0x12#8, 0x34#8, 0xAB#8, 0xCD#8]))).map
      (fun t => (t.crc, t.state)) = some (0xFC6F#16, Code.compare) := by decide +kernel
/-- R99's example. -/
theorem test_compare_mismatch :
    (nextOf (exec .compare { holding Code.compare packetB with rxcrc := 0xFC6F#16, crc := 0xA6B3#16, seq := 1#12 })).map
      (fun t => (t.state, t.err, errExpected t.errinfo, errComputed t.errinfo, errSeq t.errinfo)) =
      some (Code.fault, 2#3, 0xFC6F#16, 0xA6B3#16, 1#12) := by decide
theorem test_compare_match :
    (nextOf (exec .compare { holding Code.compare packetB with rxcrc := 0xFC6F#16, crc := 0xFC6F#16 })).map
      (fun t => (t.state, t.err)) = some (Code.seqchk, 0#3) := by decide
/-- R100's example: 59 passes. -/
theorem test_seqchk_last_row :
    (nextOf (exec .seqchk { State.reset with seq := 59#12 })).map (fun t => t.state) = some Code.store := by decide
/-- R100's example: 60 faults. -/
theorem test_seqchk_past_last_row :
    (nextOf (exec .seqchk { State.reset with seq := 60#12, cs := true })).map (fun t => (t.state, t.err, t.cs)) =
      some (Code.fault, 3#3, false) := by decide
/-- R107's example. -/
theorem test_store :
    (nextOf (exec .store { holding Code.store packetB with seq := 1#12 })).map (fun t => (t.frame, t.trace, t.state)) =
      some ([(2, 0x1234#16), (3, 0xABCD#16)], [.rowWrite 0 1], Code.next) := by decide
theorem test_store_outside :
    faultOf (exec .store { holding Code.store packetB with seq := 3#12 }) = some (.frameAddress 6) := by decide
/-- P1, iteration 2: C is accepted for row 2 and its canonical form stays in `PKT`. -/
theorem test_process_accepts :
    ends (exec .process (holding Code.seqx packetC)) (fun t => t.state == Code.opoll && t.iter == 1 &&
      t.frame == [(4, 0xFFFF#16), (5, 0x8000#16)] && t.crc == 0xEC6E#16 && t.pkt.read 1 == some 0x20#8) := by decide +kernel
/-- P6. -/
theorem test_process_out_of_range :
    (nextOf (exec .process (holding Code.seqx packetO))).map
      (fun t => (t.state, t.err, errExpected t.errinfo, errComputed t.errinfo, errSeq t.errinfo, t.iter)) =
      some (Code.fault, 3#3, 0xAF84#16, 0xAF84#16, 3#12, 0) := by decide +kernel
/-- V30. -/
theorem test_sampleDecode :
    (nextOf (exec (.sampleDecode 1) (holding Code.store packetC))).map (fun t => t.sampleOut) = some 0x8000#16 := by decide
theorem test_sampleDecode_outside :
    faultOf (exec (.sampleDecode 2) (holding Code.store packetC)) = some (.packetAddress 8) := by decide
/-- V39. -/
theorem test_rowAddr :
    (nextOf (exec (.rowAddr 5) { State.reset with seq := 2#12 })).map (fun t => t.rowAddrOut) = some 165 := by decide
theorem test_rowAddr_last :
    (nextOf (exec (.rowAddr 79) { State.reset with seq := 59#12 })).map (fun t => t.rowAddrOut) = some 4799 := by decide

/-! ### Packets taken whole -/

/-- V36: nothing but `PKT`, `POS` and `TRACE`. -/
theorem test_discard :
    ends (exec (.discard packetD) (flying [])) (fun t => t.state == Code.ipoll && t.pos == 1 &&
      t.trace == [.xfer 1 true, .discard 1] && t.frame == [] && t.iter == 0) := by decide +kernel
theorem test_discard_without_transfer :
    (nextOf (exec (.discard packetD) small)).map (fun t => (t.state, t.pos)) = some (Code.idle, 0) := by decide
/-- P1, iteration 1. -/
theorem test_data_accepted :
    (nextOf (exec (.data packetB) (flying []))).map (fun t => (t.state, t.iter, t.frame, t.pos)) =
      some (Code.opoll, 1, [(2, 0x1234#16), (3, 0xABCD#16)], 1) := by decide +kernel
/-- P3. -/
theorem test_data_mismatch :
    ends (exec (.data packetBx) (flying [])) (fun t => t.state == Code.fault && t.err == 2#3 &&
      errExpected t.errinfo == 0xFC6F#16 && errComputed t.errinfo == 0xA6B3#16 && errSeq t.errinfo == 1#12 &&
      t.frame == []) := by decide +kernel

/-! ### The acquisition loop and the host (section 5) -/

/-- V44: the count test comes first. -/
theorem test_opoll_done :
    (nextOf (exec .opoll { State.reset with state := Code.opoll, iter := 60, run := false, cs := true })).map
      (fun t => (t.state, t.cs, t.frameValid)) = some (Code.done, false, true) := by decide
/-- V45. -/
theorem test_opoll_cancelled :
    (nextOf (exec .opoll { State.reset with state := Code.opoll, iter := 59, run := false, cs := true })).map
      (fun t => (t.state, t.cs, t.err)) = some (Code.cancelled, false, 0#3) := by decide
/-- V50. -/
theorem test_next :
    (nextOf (exec .next { State.reset with state := Code.next, iter := 59 })).map (fun t => (t.state, t.iter)) =
      some (Code.opoll, 60) := by decide
theorem test_idle : nextOf (exec .idle small) = some small := by decide +kernel
theorem test_selected : (nextOf (exec .selected (holding Code.selected []))).map (fun t => t.state) = some Code.selected := by
  decide
theorem test_done : (nextOf (exec .done (holding Code.done []))).map (fun t => t.state) = some Code.done := by decide
theorem test_cancelled :
    (nextOf (exec .cancelled (holding Code.cancelled []))).map (fun t => t.state) = some Code.cancelled := by decide
theorem test_fault : (nextOf (exec .fault (holding Code.fault []))).map (fun t => t.state) = some Code.fault := by decide
theorem test_nop : (nextOf (exec .nop small)).map (fun t => (t.state, t.cs)) = some (Code.idle, false) := by decide
theorem test_cmdRsvd : (nextOf (exec .cmdRsvd small)).map (fun t => (t.state, t.cs)) = some (Code.idle, false) := by decide
/-- V42. -/
theorem test_select : (nextOf (exec .select small)).map (fun t => (t.state, t.cs)) = some (Code.selected, true) := by decide
/-- V51. -/
theorem test_select_in_done :
    (nextOf (exec .select { small with state := Code.done })).map (fun t => (t.state, t.cs)) = some (Code.done, false) := by
  decide
/-- V43. -/
theorem test_start :
    (nextOf (exec .start { small with state := Code.selected, iter := 2 })).map (fun t => (t.state, t.iter)) =
      some (Code.opoll, 0) := by decide
/-- V41. -/
theorem test_start_in_idle : (nextOf (exec .start small)).map (fun t => t.state) = some Code.idle := by decide
/-- V48. -/
theorem test_cancel :
    (nextOf (exec .cancel (flying []))).map (fun t => (t.state, t.run, t.cs)) = some (Code.xfer, false, true) := by decide
/-- V53, and R155: the pending answer is dropped. -/
theorem test_reset :
    ends (exec .reset { flying [.ok packetA, .ok packetB] with run := false, iter := 2, pos := 5 }) (fun t =>
      t.state == Code.idle && t.run && !t.cs && t.iter == 0 && t.err == 0#3 && t.pos == 0 && t.bus == [.ok packetB]) := by decide +kernel
/-- The read port: a cell of a stored row. -/
theorem test_frameRead :
    (nextOf (exec (.frameRead 3#13) { small with state := Code.done, frame := [(2, 0x1234#16), (3, 0xABCD#16)] })).map
      (fun t => t.readData) = some 0xABCD#16 := by decide
/-- U7: refused while busy, and past the last cell. -/
theorem test_frameRead_refused :
    refusalOf (exec (.frameRead 3#13) (flying [])) = some .frameBusy ∧
    refusalOf (exec (.frameRead 6#13) small) = some (.frameReadAddress 6) := by decide
/-- P1. -/
theorem test_capture_in_order :
    ends (exec .capture { small with
      bus := [.ok packetD, .ok packetA, .ok packetD', .ok packetD, .ok packetB, .ok packetC] })
      (fun t => t.state == Code.done && t.iter == 3 && t.pos == 6 && !t.cs &&
        t.frame == [(0, 0x0001#16), (1, 0x0002#16), (2, 0x1234#16), (3, 0xABCD#16), (4, 0xFFFF#16), (5, 0x8000#16)]) := by decide +kernel
/-- P5. -/
theorem test_capture_transport_error :
    ends (exec .capture { small with bus := [.ok packetA, .ok packetD, .err 4#16, .ok packetB] })
      (fun t => t.state == Code.fault && t.err == 1#3 && t.iter == 1 && t.pos == 3 && !t.cs &&
        t.frame == [(0, 0x0001#16), (1, 0x0002#16)] && t.pkt == [] && t.bus.length == 1) := by decide +kernel

/-! ### Witnesses: concrete states and operands that meet the hypotheses of the statements -/

/-- The reads of a packet that stands in `PKT`. -/
theorem holding_reads (code : BitVec 5) (p : List Byte) (i : Nat) : (holding code p).pkt.read i = p[i]? :=
  Memory.read_ofList_zero p i

/-- A working state with one row stored: B's row, then A in `PKT`, checked and about to be stored. -/
def stored : State :=
  { small with
    state := Code.store, cs := true, iter := 1, seq := 0#12, rxcrc := 0x79CE#16, crc := 0x79CE#16
    pkt := Memory.ofList 0 [0x00#8, 0x00#8, 0x00#8, 0x00#8, 0x00#8, 0x01#8, 0x00#8, 0x02#8]
    frame := [(2, 0x1234#16), (3, 0xABCD#16)]
    pos := 2, trace := [.xfer 1 true, .rowWrite 1 1, .xfer 2 true] }

/-- A state that a checksum fault left: P3. -/
def faulted : State :=
  { small with
    state := Code.fault, err := 2#3, seq := 1#12, rxcrc := 0xFC6F#16, crc := 0xA6B3#16
    errinfo := packErrinfo 0xFC6F#16 0xA6B3#16 1#12 }

/-- DecodeEncodeRoundTrip: both classes, and a read address inside and outside the frame. -/
theorem witness_DecodeEncodeRoundTrip :
    Instr.wf Config.small (.discard packetD) = true ∧ Instr.wf Config.small (.data packetC) = true ∧
    Instr.wf Config.small (.frameRead 5#13) = true ∧ Instr.wf Config.small (.sampleDecode 1) = true ∧
    (Instr.wf Config.small (.frameRead 8191#13) = true ∨ ∃ a, Instr.frameRead 8191#13 = .frameRead a) :=
  ⟨by decide, by decide, by decide, by decide, .inr ⟨_, rfl⟩⟩

/-- EveryPacketHasOneClass: a packet of each class. -/
theorem witness_EveryPacketHasOneClass :
    packetD'.length = Config.small.pktLen ∧ packetA.length = Config.small.pktLen := by decide

/-- NeverProducedStatesAreRefused: each of its cases, at the first code refused. -/
theorem witness_NeverProducedStatesAreRefused :
    (¬ ((9 : Nat) = 2 + 2 + 2 * Config.small.cols ∧ Config.small.rows ≤ 4096)) ∧
    (Config.small.pktLen = 2 + 2 + 2 * Config.small.cols ∧ Config.small.rows ≤ 4096) ∧
    17 ≤ ({ small with state := 17#5 } : State).state.toNat ∧ 4 ≤ ({ small with err := 4#3 } : State).err.toNat ∧
    small.cfg.engineAlone = false ∧
    ∃ e b v rest, ({ small with ports := [.engine 1#2 0#8 0#16] } : State).ports = .engine e b v :: rest :=
  ⟨by decide, by decide, by decide, by decide, by decide, _, _, _, _, rfl⟩

/-- StepRunsDecodedOperation: a code of `STATE`, a packet taken whole, an engine input, and quiet inputs. -/
theorem witness_StepRunsDecodedOperation :
    small.cfg.wf = true ∧ small.state.toNat ≤ 16 ∧ small.err.toNat ≤ 3 ∧ decode small.cfg small.fetch = .ok .idle ∧
    ({ flying [.ok packetB] with ports := [.take] } : State).fetch = .packet packetB ∧
    decode Config.small (.packet packetB) = .ok (.data packetB) ∧
    ({ small with ports := [.engine 1#2 7#8 0#16], cfg := { Config.small with engineAlone := true } } : State).fetch =
      .engine 1#2 7#8 0#16 ∧
    small.ports = [] ∧ ({ small with ports := [.quiet] } : State).ports = [.quiet] := by decide

/-- StepRunsDecodedOperation: each input in a state that is busy, on the edges of its range; lines at 0; `take` with a transfer
in flight, with none, and with one that fails. -/
theorem witness_StepRunsDecodedOperation_inputs :
    (∀ i ∈ [PortSample.cmd 0#2, .cmd 3#2, .cancel 0#1, .cancel 1#1, .rst 0#1, .rst 1#1, .frameAddr 0#13, .frameAddr 8191#13],
      ({ flying [] with ports := [i] } : State).ports = i :: []) ∧
    (flying []).cfg.wf = true ∧ (flying []).state.toNat ≤ 16 ∧ (flying []).err.toNat ≤ 3 ∧
    (flying [.ok packetA]).state = Code.xfer ∧ (flying [.ok packetA]).answers = .ok packetA :: [] ∧
    small.state ≠ Code.xfer ∧ (∀ p more, (flying [.err 4#16]).answers ≠ .ok p :: more) :=
  ⟨fun _ _ => rfl, by decide, by decide, by decide, rfl, rfl, by decide, fun _ _ h => nomatch h⟩

/-- R123 and R131: CANCEL and RESET are taken in a state that waits for an answer, and a line at 0 does nothing there. -/
theorem test_step_inputs_while_waiting :
    (nextOf (step { flying [] with ports := [.cancel 1#1] })).map (fun t => (t.run, t.state, t.ports)) =
      some (false, Code.xfer, []) ∧
    (nextOf (step { flying [] with ports := [.rst 1#1] })).map (fun t => (t.run, t.state, t.cs)) =
      some (true, Code.idle, false) ∧
    (nextOf (step { flying [] with ports := [.rst 0#1] })).map (fun t => (t.run, t.state, t.cs)) =
      some (true, Code.xfer, true) := by decide

/-- CrcByteIsBitSerial. -/
theorem witness_CrcByteIsBitSerial : small.table = crcTable := rfl

/-- ChecksumLaws: buffers of equal length, and a byte changed at the last position. -/
theorem witness_ChecksumLaws :
    packetA.length = packetB.length ∧ 7 < packetA.length ∧ packetA.getD 7 0#8 ≠ 0x03#8 := by decide

/-- XferResult: no answer, an answer, a failure, from the listed answers and from those that repeat; codes of 8 bits, the last
bit of one, and the bits that codes of 4 bits leave to zero. -/
theorem witness_XferResult :
    (flying []).answers = [] ∧ (flying [.ok packetA]).answers = [.ok packetA] ∧
    packetA.length = (flying [.ok packetA]).cfg.pktLen ∧ (flying [.err 0#16]).answers = [.err 0#16] ∧
    (endless Code.xfer [.ok packetA]).answers = [.ok packetA] ∧ small.cfg.tcodeBits = 8 ∧
    7 < (small.cfg.tcodeBits : Nat) ∧ (({ small.cfg with tcodeBits := 4 } : Config).tcodeBits : Nat) ≤ 4 := by decide

/-- StopsOutsideTheAddressSpaces: the first column, the first sequence number and a length that stop. -/
theorem witness_StopsOutsideTheAddressSpaces :
    small.cfg.cols ≤ 2 ∧ ({ small with seq := 3#12 } : State).cfg.rows ≤ ({ small with seq := 3#12 } : State).seq.toNat ∧
    (flying [.ok packetA.tail]).answers = [.ok packetA.tail] ∧ packetA.tail.length ≠ (flying []).cfg.pktLen ∧
    (flying []).state = Code.xfer := by decide

/-- ClassifyResult, SequenceExtractionResult, ChecksumExtractionResult, CanonResult: the four leading bytes hold values. -/
theorem witness_leading_bytes :
    (holding Code.classify packetC).pkt.read 0 = some 0x00#8 ∧ (holding Code.classify packetC).pkt.read 1 = some 0x25#8 ∧
    (holding Code.classify packetC).pkt.read 2 = some 0xEC#8 ∧ (holding Code.classify packetC).pkt.read 3 = some 0x6E#8 := by
  decide

/-- SyncSkipsExactlyTheDiscards and DiscardsNeverEndTheLoop: two discards and a DATA packet, and no discard. -/
theorem witness_SyncSkipsExactlyTheDiscards :
    ({ flying (discardAnswers [packetD', packetD] ++ [.ok packetB]) with state := Code.ipoll } : State).bus =
      discardAnswers [packetD', packetD] ++ .ok packetB :: [] ∧
    (flying [.ok packetB]).bus = discardAnswers [] ++ .ok packetB :: [] ∧
    (∀ d ∈ [packetD', packetD], DiscardPacket Config.small d) ∧ DataPacket Config.small packetB ∧
    small.cfg.wf = true ∧ small.run = true ∧ small.err.toNat ≤ 3 ∧ small.ports = [] := by
  refine ⟨rfl, rfl, ?_, ?_, by decide⟩
  · simp only [List.mem_cons, List.not_mem_nil, or_false]
    rintro d (rfl | rfl) <;> exact ⟨by decide, by decide⟩
  · exact ⟨by decide, by decide⟩

/-- SyncOutcomes, with `RUN` 1 and 0, and BlockStopsOnlyWhereTheSpecRefuses' stream. -/
theorem witness_SyncOutcomes :
    (flying [.ok packetA, .err 4#16]).BusAdmitted ∧ (flying []).cfg.wf = true ∧ (flying []).run = true ∧
    ({ small with run := false } : State).run = false := by
  refine ⟨?_, by decide, by decide, by decide⟩
  intro b hb
  simp only [flying, show small.busLoop = [] from rfl, List.append_nil, List.mem_cons, Answer.ok.injEq, reduceCtorEq,
    List.not_mem_nil, or_false] at hb
  subst hb
  decide

/-- UnansweredTransferHangs. -/
theorem witness_UnansweredTransferHangs :
    (flying []).cfg.wf = true ∧ (flying []).err.toNat ≤ 3 ∧ (flying []).state = Code.xfer ∧
    (flying []).answers = [] ∧ (flying []).ports = [] := by decide

/-- EndlessDiscardsAreAnInfiniteRun: one discard listed, and two that repeat. -/
theorem witness_EndlessDiscardsAreAnInfiniteRun :
    ({ endless Code.ipoll [.ok packetD', .ok packetD] with bus := [.ok packetD] } : State).EndlessDiscards ∧
    (endless Code.ipoll [.ok packetD]).cfg.wf = true ∧ (endless Code.ipoll [.ok packetD]).err.toNat ≤ 3 ∧
    (endless Code.ipoll [.ok packetD]).ports = [] ∧ (endless Code.ipoll [.ok packetD]).state = Code.ipoll ∧
    (endless Code.ipoll [.ok packetD]).run = true := by
  refine ⟨⟨List.cons_ne_nil _ _, ?_⟩, by decide⟩
  simp only [endless, List.cons_append, List.nil_append, List.mem_cons, List.not_mem_nil, or_false]
  rintro a (rfl | rfl | rfl) <;> exact ⟨_, rfl, by decide, by decide⟩

/-- CrcrunResult, StoreResult, ProcessOutcomes: a packet of `PKT_LEN` bytes in `PKT`, the first and the last row. -/
theorem witness_packet_in_pkt :
    (∀ i, (holding Code.store packetB).pkt.read i = packetB[i]?) ∧ packetB.length = (holding Code.store packetB).cfg.pktLen ∧
    (holding Code.store packetB).cfg.wf = true ∧ (holding Code.store packetB).table = crcTable ∧
    (holding Code.store packetB).seq.toNat < (holding Code.store packetB).cfg.rows ∧
    ({ holding Code.store packetB with seq := 2#12 } : State).seq.toNat < (holding Code.store packetB).cfg.rows :=
  ⟨holding_reads _ _, by decide, by decide, rfl, by decide, by decide⟩

/-- ProcessOutcomes: a packet for each of its three cases. -/
theorem witness_ProcessOutcomes :
    packetChecksum Config.small packetBx ≠ recomputedChecksum Config.small packetBx ∧
    packetChecksum Config.small packetO = recomputedChecksum Config.small packetO ∧
    Config.small.rows ≤ (packetSeq Config.small packetO).toNat ∧
    packetChecksum Config.small packetC = recomputedChecksum Config.small packetC ∧
    ¬ Config.small.rows ≤ (packetSeq Config.small packetC).toNat := by decide +kernel

/-- SampleAndRowAddressResults: the first and the last column. -/
theorem witness_SampleAndRowAddressResults :
    0 < (holding Code.store packetB).cfg.cols ∧ 1 < (holding Code.store packetB).cfg.cols ∧
    (holding Code.store packetB).pkt.read 4 = some 0x12#8 ∧ (holding Code.store packetB).pkt.read 5 = some 0x34#8 ∧
    (holding Code.store packetB).pkt.read 6 = some 0xAB#8 ∧ (holding Code.store packetB).pkt.read 7 = some 0xCD#8 := by decide

/-- UndefinedPacketBytesDoNotStop: no byte of `PKT` holds a value, the last row, the last column. -/
theorem witness_UndefinedPacketBytesDoNotStop :
    (holding Code.store []).pkt.read 0 = none ∧ ({ holding Code.store [] with seq := 2#12 } : State).seq.toNat < 3 ∧
    1 < small.cfg.cols := by decide

/-- SecondStoreOverwritesTheRow: B and then another packet for the same row. -/
theorem witness_SecondStoreOverwritesTheRow :
    ∃ t t', (holding Code.store packetB).frame.wf = true ∧ exec .store (holding Code.store packetB) = .next t ∧
      (holding Code.store packetC).cfg = (holding Code.store packetB).cfg ∧
      (holding Code.store packetC).seq = (holding Code.store packetB).seq ∧
      exec .store { holding Code.store packetC with frame := t.frame } = .next t' := ⟨_, _, rfl, rfl, rfl, rfl, rfl⟩

/-- ProcessIgnoresFlagBits: C, and C without its flag bits. -/
theorem witness_ProcessIgnoresFlagBits :
    small.cfg.seqMask &&& small.cfg.flagMask = 0#16 ∧ packetC.length = small.cfg.pktLen ∧
    (packetC.set 1 0x20#8).length = small.cfg.pktLen ∧
    clearFlags small.cfg (headerOfBytes packetC) = clearFlags small.cfg (headerOfBytes (packetC.set 1 0x20#8)) ∧
    packetC.drop 2 = (packetC.set 1 0x20#8).drop 2 ∧ packetC ≠ packetC.set 1 0x20#8 := by decide

/-- DiscardPacketResult and DataPacketIsReceptionThenProcess, with and without a transfer in flight. -/
theorem witness_packet_classes :
    DiscardPacket Config.small packetD' ∧ DataPacket Config.small packetBx ∧ (flying []).state = Code.xfer ∧
    small.state ≠ Code.xfer := ⟨⟨by decide, by decide⟩, ⟨by decide, by decide⟩, by decide, by decide⟩

/-- AcceptedPacketIsStored and the premises of CorruptedPacketIsRejected. -/
theorem witness_AcceptedPacketIsStored :
    AcceptedPacket Config.small packetB ∧ (flying []).cfg.wf = true ∧ (flying []).table = crcTable ∧
    (flying []).state = Code.xfer := ⟨⟨⟨by decide, by decide⟩, by decide +kernel⟩, by decide, rfl, by decide⟩

/-- CorruptedPacketIsRejected, case by case: the marker appears; a sequence bit; flag bits only; each byte of the checksum
field; the first and the last byte of the payload. -/
theorem witness_CorruptedPacketIsRejected :
    (packetB.getD 1 0#8 ≠ 0x1F#8 ∧ carriesMarker Config.small (headerOfBytes (packetB.set 1 0x1F#8)) = true) ∧
    (carriesMarker Config.small (headerOfBytes (packetB.set 0 0x80#8)) = false ∧
      clearFlags Config.small (headerOfBytes (packetB.set 0 0x80#8)) ≠ clearFlags Config.small (headerOfBytes packetB)) ∧
    (packetB.getD 1 0#8 ≠ 0x15#8 ∧ carriesMarker Config.small (headerOfBytes (packetB.set 1 0x15#8)) = false ∧
      clearFlags Config.small (headerOfBytes (packetB.set 1 0x15#8)) = clearFlags Config.small (headerOfBytes packetB)) ∧
    (packetB.getD 2 0#8 ≠ 0#8 ∧ packetB.getD 3 0#8 ≠ 0#8 ∧ packetB.getD 4 0#8 ≠ 0#8 ∧ packetB.getD 7 0#8 ≠ 0#8 ∧
      7 < packetB.length) := by decide

/-- QuietBusPacketIsAccepted. -/
theorem witness_QuietBusPacketIsAccepted :
    Config.small.wf = true ∧ 0 < Config.small.rows ∧ Config.small.discardMask ≠ 0#16 := by decide

/-- CaptureOutcomes: IDLE, SELECTED, another state, and `RUN = 0`. -/
theorem witness_CaptureOutcomes :
    small.state = Code.idle ∧ (holding Code.selected []).state = Code.selected ∧ (flying []).state ≠ Code.idle ∧
    (flying []).state ≠ Code.selected ∧ ({ small with run := false } : State).run = false ∧ 0 < small.cfg.nIter ∧
    small.bus = [] ∧ small.busLoop = [] ∧ small.cfg.wf = true := by decide

/-- The groups of P1: three accepted packets after one, two and no discards. -/
def groupsP1 : List (List (List Byte) × List Byte) :=
  [([packetD], packetA), ([packetD', packetD], packetB), ([], packetC)]

/-- CaptureOfAcceptedStreamEndsInDone: the stream of P1. -/
theorem witness_CaptureOfAcceptedStreamEndsInDone :
    ({ small with bus := streamOf groupsP1 } : State).bus = streamOf groupsP1 ++ [] ∧ groupsP1.length = small.cfg.nIter ∧
    (∀ g ∈ groupsP1, (∀ d ∈ g.1, DiscardPacket small.cfg d) ∧ AcceptedPacket small.cfg g.2) ∧ small.cfg.wf = true ∧
    small.table = crcTable ∧ small.run = true ∧ small.state = Code.idle := by
  have h : ∀ p ∈ [packetA, packetB, packetC], AcceptedPacket small.cfg p := by
    unfold AcceptedPacket DataPacket
    decide +kernel
  have hd : ∀ d ∈ [packetD, packetD'], DiscardPacket small.cfg d := by
    unfold DiscardPacket
    decide +kernel
  refine ⟨(List.append_nil _).symm, rfl, ?_, by decide, rfl, rfl, rfl⟩
  simp only [groupsP1, List.mem_cons, List.not_mem_nil, or_false]
  rintro g (rfl | rfl | rfl)
  · exact ⟨fun d m => hd d (by simp_all), h _ (by simp)⟩
  · exact ⟨fun d m => hd d (by simp_all [or_comm]), h _ (by simp)⟩
  · exact ⟨fun d m => absurd m List.not_mem_nil, h _ (by simp)⟩

/-- FusedPacketIsARunOfMicroOperations: an accepted packet, a refused one, a discard. -/
theorem witness_FusedPacketIsARunOfMicroOperations :
    (flying [.ok packetB]).cfg.wf = true ∧ (flying [.ok packetB]).err.toNat ≤ 3 ∧ (flying [.ok packetB]).state = Code.xfer ∧
    (flying [.ok packetB]).ports = [] ∧ (flying [.ok packetB]).answers = [.ok packetB] ∧
    (DataPacket Config.small packetB ∧ DataPacket Config.small packetBx ∧ DiscardPacket Config.small packetD) :=
  ⟨by decide, by decide, by decide, by decide, by decide, ⟨by decide, by decide⟩, ⟨by decide, by decide⟩, by decide, by decide⟩

/-- SyncAndProcessAreRuns and CaptureIsARunAfterSelectAndStart: SYNC, PROCESS and CAPTURE answer a next state there. -/
theorem witness_SyncAndProcessAreRuns :
    (nextOf (exec .sync { flying [.ok packetB] with state := Code.ipoll })).isSome = true ∧
    (nextOf (exec .process (holding Code.seqx packetB))).isSome = true ∧ (nextOf (exec .capture small)).isSome = true ∧
    (holding Code.seqx packetB).cfg.wf = true ∧ (holding Code.seqx packetB).err.toNat ≤ 3 ∧
    (holding Code.seqx packetB).ports = [] ∧ small.state = Code.idle := by decide +kernel

/-- ResetResult: in XFER and elsewhere. -/
theorem witness_ResetResult : (flying [.ok packetA]).state = Code.xfer ∧ small.state ≠ Code.xfer := by decide

/-- FrameReadResult: busy at codes 2 and 13 and not at 1 and 14; the last cell and the first address past it; a cell with and
without a value. -/
theorem witness_FrameReadResult :
    2 ≤ (holding Code.opoll []).state.toNat ∧ (holding Code.next []).state.toNat ≤ 13 ∧
    ¬ (2 ≤ (holding Code.selected []).state.toNat ∧ (holding Code.selected []).state.toNat ≤ 13) ∧
    ¬ (2 ≤ (holding Code.done []).state.toNat ∧ (holding Code.done []).state.toNat ≤ 13) ∧
    (5#13).toNat < small.cfg.rows * small.cfg.cols ∧ small.cfg.rows * small.cfg.cols ≤ (6#13).toNat ∧
    stored.frame.read 3 = some 0xABCD#16 ∧ stored.frame.read 5 = none := by decide

/-- StatusOutputs: its premises, at `ITER` 0 and 1. -/
theorem witness_StatusOutputs :
    small.busy = false ∧ (flying []).busy = true ∧ (flying []).iter = 0 ∧ stored.busy = true ∧ 1 ≤ stored.iter := by decide

/-- StepKeepsControlInvariant, at a state about to store. -/
theorem witness_StepKeepsControlInvariant : ControlInv stored ∧ (nextOf (step stored)).isSome = true :=
  ⟨⟨by decide, by decide, by decide, by decide, by decide, by decide, by decide, by decide, by decide⟩, by decide +kernel⟩

/-- StepKeepsBufferInvariant, at a state about to store. -/
theorem witness_StepKeepsBufferInvariant : BufferInv stored :=
  ⟨by decide, rfl, by decide, by decide, by decide, by decide, by decide, by decide, by decide, fun _ _ => by decide +kernel,
    by decide, by decide⟩

/-- StepKeepsTraceInvariant, at a state with one row stored. -/
theorem witness_StepKeepsTraceInvariant : TraceInv stored := by
  refine ⟨by decide, by decide, by decide, ?_, ?_⟩
  · intro a v h
    refine ⟨1, ?_⟩
    have e : a = 2 ∨ a = 3 := by
      simp only [stored, Memory.read] at h
      split at h
      · exact .inl ‹_›
      · split at h
        · exact .inr ‹_›
        · exact nomatch h
    rcases e with rfl | rfl <;> decide
  · intro k r h
    simp only [stored, List.mem_cons, reduceCtorEq, TraceEvent.rowWrite.injEq, List.not_mem_nil, false_or, or_false] at h
    obtain ⟨rfl, rfl⟩ := h
    refine ⟨by decide, fun c hc => ?_⟩
    obtain rfl | rfl : c = 0 ∨ c = 1 := by
      have : c < 2 := hc
      omega
    · exact ⟨0x1234#16, by decide⟩
    · exact ⟨0xABCD#16, by decide⟩

/-- StepKeepsFaultRecordInvariant, at a state a checksum fault left; a step answers a next state there. -/
theorem witness_StepKeepsFaultRecordInvariant : FaultInv faulted ∧ (nextOf (step faulted)).isSome = true :=
  ⟨⟨by decide, by decide, by decide, by decide, by decide⟩, by decide +kernel⟩

/-- BlockStopsOnlyWhereTheSpecRefuses: its premises about the inputs, at a state with a quiet input and at one that reads. -/
theorem witness_BlockStopsOnlyWhereTheSpecRefuses :
    (∀ b, Answer.ok b ∉ stored.bus ++ stored.busLoop) ∧ stored.fetch = .seq Code.store ∧
    ({ faulted with ports := [.frameAddr 5#13] } : State).fetch = .frameAddr 5#13 ∧
    ¬ (2 ≤ faulted.state.toNat ∧ faulted.state.toNat ≤ 13) ∧ (5#13).toNat < faulted.cfg.rows * faulted.cfg.cols :=
  ⟨fun _ h => absurd h List.not_mem_nil, by decide, by decide, by decide, by decide⟩

/-- TerminalStatesAreAbsorbing: each terminal state steps. -/
theorem witness_TerminalStatesAreAbsorbing :
    (nextOf (step (holding Code.done []))).isSome = true ∧ (nextOf (step (holding Code.cancelled []))).isSome = true ∧
    (nextOf (step (holding Code.fault []))).isSome = true ∧ (holding Code.done []).fetch = .seq Code.done := by decide

/-- OnlyCancelAndResetWriteRun: both clauses are met by a step. -/
theorem witness_OnlyCancelAndResetWriteRun :
    (nextOf (step { small with ports := [.cancel 1#1] })).map (fun t => t.run) = some false ∧ small.run = true ∧
    (nextOf (step { small with run := false, ports := [.rst 1#1] })).map (fun t => t.run) = some true := by decide

/-- OnlyStoreWritesTheFrame: a step that is none of the three exceptions. -/
theorem witness_OnlyStoreWritesTheFrame :
    (nextOf (step (holding Code.next packetA))).isSome = true ∧
    (holding Code.next packetA).fetch = .seq Code.next := by decide

/-- FaultEntryIsPrecise: each of the four steps that enter FAULT. -/
theorem witness_FaultEntryIsPrecise :
    (nextOf (step (flying [.err 4#16]))).map (fun t => t.state) = some Code.fault ∧
    (nextOf (step { holding Code.compare packetB with rxcrc := 1#16 })).map (fun t => t.state) = some Code.fault ∧
    (nextOf (step { holding Code.seqchk packetB with seq := 3#12 })).map (fun t => t.state) = some Code.fault ∧
    (nextOf (step { flying [.ok packetBx] with ports := [.take] })).map (fun t => t.state) = some Code.fault := by
  decide +kernel

/-- CancellationCommutesWithWorkingSteps: its premise. -/
theorem witness_CancellationCommutesWithWorkingSteps :
    Instr.xfer ∈ [Instr.xfer, .classify, .seqx, .crcx, .canon, .crcrun, .compare, .seqchk, .store, .next, .process] ∧
    Instr.process ∈ [Instr.xfer, .classify, .seqx, .crcx, .canon, .crcrun, .compare, .seqchk, .store, .next, .process] := by
  decide

end Sys2Proof.Machine
end

section
/-! PROOFS. One step of the machine: where the block takes none, and which operation it performs where it takes one. -/

namespace Sys2Proof.Machine

/-! ### States the block does not step from -/

theorem State.stop_of_badConfig {s : State} (hw : s.cfg.wf ≠ true) : s.stop = some .badConfig :=
  if_pos (Bool.eq_false_iff.2 hw)

theorem State.stop_of_stateCode {s : State} (hw : s.cfg.wf = true) (hc : 16 < s.state.toNat) :
    s.stop = some (.stateCode s.state) := by
  simp [State.stop, hw, hc]

theorem State.stop_of_errCode {s : State} (hw : s.cfg.wf = true) (hc : s.state.toNat ≤ 16) (he : 3 < s.err.toNat) :
    s.stop = some (.errCode s.err) := by
  simp [State.stop, hw, Nat.not_lt.2 hc, he]

theorem State.stop_of_engine {s : State} {e : BitVec 2} {b : Byte} {v : Half} (hw : s.cfg.wf = true)
    (hc : s.state.toNat ≤ 16) (he : s.err.toNat ≤ 3) (ha : s.cfg.engineAlone = false) (hf : s.fetch = .engine e b v) :
    s.stop = some .noEnginePort := by
  simp [State.stop, hw, Nat.not_lt.2 hc, Nat.not_lt.2 he, hf, ha]

/-- Where the block stops, a step is refused for that reason. -/
theorem step_of_stop {s : State} {r : Refusal} (h : s.stop = some r) : step s = .refused r := by
  simp [step, h]

/-- Settles O4: each clause is one reason to stop, in the order in which `State.stop` tests them. -/
theorem neverProducedStatesAreRefused : Obligations.NeverProducedStatesAreRefused := by
  intro s
  rw [← Config.wf_iff]
  refine ⟨fun hw => step_of_stop (State.stop_of_badConfig hw), fun hw => ⟨?stateCode, ?errCode, ?engine⟩⟩
  case stateCode => exact fun hc => step_of_stop (State.stop_of_stateCode hw hc)
  case errCode => exact fun hc he => step_of_stop (State.stop_of_errCode hw hc he)
  case engine =>
    rintro hc he ha ⟨e, b, v, rest, hp⟩
    exact step_of_stop (State.stop_of_engine hw hc he ha (State.fetch_of_engine hp))

/-! ### The operation a step performs -/

/-- A quiet input lets the sequencer fetch the code in `STATE` (R19). -/
theorem State.fetch_of_quiet {s : State} {rest : List PortSample} (h : s.ports = .quiet :: rest) :
    s.fetch = .seq s.state := by
  simp only [State.fetch, h]

/-- Moving past a word that is no packet takes its input and nothing else. -/
theorem State.consume_of_not_packet {s : State} (h : ∀ p, s.fetch ≠ .packet p) :
    s.consume = { s with ports := s.ports.tail } :=
  congrArg (fun bus => { s with ports := s.ports.tail, bus := bus }) (s.consume_bus_of_not_packet h)

/-- Moving past a packet taken whole also takes its answer from the stream. -/
theorem State.consume_of_packet {s : State} {p : List Byte} (h : s.fetch = .packet p) :
    s.consume = { s with ports := s.ports.tail, bus := s.answers.tail } :=
  congrArg (fun bus => { s with ports := s.ports.tail, bus := bus }) (s.consume_bus_of_packet h)

/-- A word that is neither a packet nor the engine's inputs, brought by the input `x` at the head of the schedule, is
performed with that input gone. -/
theorem step_of_input {s : State} {x : PortSample} {rest : List PortSample} {w : InstrWord} {i : Instr}
    (hw : s.cfg.wf = true) (hc : s.state.toNat ≤ 16) (he : s.err.toNat ≤ 3) (hp : s.ports = x :: rest)
    (hf : s.fetch = w) (hd : decode s.cfg w = .ok i) (hpkt : ∀ p, w ≠ .packet p) (heng : ∀ e b v, w ≠ .engine e b v) :
    step s = exec i { s with ports := rest } := by
  subst hf
  have hs : s.stop = none := State.stop_eq_none.2 ⟨hw, hc, he, fun ⟨e, b, v, h⟩ => absurd h (heng e b v)⟩
  rw [step_of_decode hs hd, State.consume_of_not_packet hpkt, hp, List.tail_cons]

/-- With a command to come, in every state the block steps from, that command is performed (R69). -/
theorem step_of_cmd {s : State} {c : BitVec 2} {rest : List PortSample} (hw : s.cfg.wf = true)
    (hc : s.state.toNat ≤ 16) (he : s.err.toNat ≤ 3) (hp : s.ports = .cmd c :: rest) :
    step s = exec (decodeCmd c) { s with ports := rest } :=
  step_of_input hw hc he hp (State.fetch_of_cmd hp) rfl nofun nofun

/-- Settles O5: moving past the fetched word is `consume`, the fetch goes by the input at the head of the schedule, and
the host's inputs are served in every state. -/
theorem stepRunsDecodedOperation : Obligations.StepRunsDecodedOperation := by
  refine ⟨?performs, ?fetches, ?inputs⟩
  case performs =>
    intro s i hw hc he ha hd
    rw [step_of_decode (State.stop_eq_none.2 ⟨hw, hc, he, ha⟩) hd]
    exact ⟨fun h => by rw [State.consume_of_not_packet h], fun ⟨p, h⟩ => by rw [State.consume_of_packet h]⟩
  case fetches =>
    exact fun _ _ => ⟨fun h => h.elim State.fetch_of_ports_nil State.fetch_of_quiet,
      fun _ => State.fetch_of_cmd,
      fun _ => State.fetch_of_cancel,
      fun _ => State.fetch_of_rst,
      fun _ => State.fetch_of_frameAddr,
      fun _ _ _ => State.fetch_of_engine,
      fun h => ⟨fun _ _ => State.fetch_of_take h, State.fetch_of_take_quiet h⟩⟩
  case inputs =>
    intro s rest hw hc he
    refine ⟨step_of_cmd hw hc he, step_of_cmd hw hc he, step_of_cmd hw hc he, step_of_cmd hw hc he, ?cancel, ?reset, ?read⟩
    case cancel => exact fun hp => step_of_input hw hc he hp (State.fetch_of_cancel hp) rfl nofun nofun
    case reset => exact fun hp => step_of_input hw hc he hp (State.fetch_of_rst hp) rfl nofun nofun
    case read => exact fun a hp => step_of_input hw hc he hp (State.fetch_of_frameAddr hp) rfl nofun nofun

end Sys2Proof.Machine
end

section
/-! PROOFS. What a step can do, said once: the sequencer's moves and the effects of the inputs, and that a step is one of
them or, for a packet taken whole, a run of moves. -/

namespace Sys2Proof.Machine

/-- `s` with the input at the head of the schedule gone (log entry 7). -/
def State.served (s : State) : State := { s with ports := s.ports.tail }

/-! ### The moves of the sequencer -/

/-- `Move s t`: the micro-operation that `STATE` names takes `s` to `t`; one constructor per way it can end (R86 to R118). -/
inductive Move : State → State → Prop where
  /-- The waiting and the terminal states, and a transfer without an answer (R87, R113). -/
  | rest {s : State} : s.state.toNat ≤ 1 ∨ 14 ≤ s.state.toNat ∨ s.state = Code.xfer ∧ s.answers = [] → Move s s
  | complete {s : State} : s.state = Code.opoll → s.iter = s.cfg.nIter → Move s s.enterDone
  | cancelled {s : State} : s.state = Code.opoll ∧ s.iter ≠ s.cfg.nIter ∨ s.state = Code.ipoll → s.run = false →
      Move s s.enterCancelled
  | turn {s : State} : s.state = Code.opoll → s.iter ≠ s.cfg.nIter → s.run = true → Move s (s.goto Code.ipoll)
  | request {s : State} : s.state = Code.ipoll → s.run = true → Move s s.requestTransfer
  | receive {s : State} {b : List Byte} {rest : List Answer} : s.state = Code.xfer → s.answers = .ok b :: rest →
      b.length = s.cfg.pktLen → Move s ({ s with bus := rest }.receive b)
  | transportFault {s : State} {c : TransportCode} {rest : List Answer} : s.state = Code.xfer →
      s.answers = .err c :: rest → Move s ({ s with bus := rest }.raiseTransport c)
  | classify {s : State} : s.state = Code.classify → Move s (s.classifyAs s.isDiscard)
  | seqx {s : State} : s.state = Code.seqx →
      Move s { s with seq := seqOfHeader s.cfg s.header, state := Code.crcx, draws := s.draws + 1 }
  | crcx {s : State} : s.state = Code.crcx →
      Move s { s with rxcrc := s.transmittedChecksum, state := Code.canon, draws := s.draws + 1 }
  | canon {s : State} : s.state = Code.canon →
      Move s { s with pkt := s.canonicalPkt, state := Code.crcrun, draws := s.draws + 1 }
  | crcrun {s : State} : s.state = Code.crcrun →
      Move s { s with
        crc := checksum s.table 0#16 (s.pktBytes 0 s.cfg.pktLen), state := Code.compare, draws := s.draws + 1 }
  | crcMatches {s : State} : s.state = Code.compare → s.rxcrc = s.crc → Move s (s.goto Code.seqchk)
  | checksumFault {s : State} : s.state = Code.compare → s.rxcrc ≠ s.crc → Move s s.raiseChecksum
  | seqInRange {s : State} : s.state = Code.seqchk → s.seq.toNat < s.cfg.rows → Move s (s.goto Code.store)
  | seqRangeFault {s : State} : s.state = Code.seqchk → ¬ s.seq.toNat < s.cfg.rows → Move s s.raiseSeqRange
  | store {s : State} : s.state = Code.store → s.seq.toNat < s.cfg.rows →
      Move s { s with
        frame := s.frame.writeFrom (cellAddress s.cfg s.seq.toNat 0) s.samples
        trace := s.trace ++ [TraceEvent.rowWrite s.pos s.seq.toNat]
        state := Code.next
        draws := s.draws + 1 }
  | next {s : State} : s.state = Code.next → Move s { s with iter := s.iter + 1, state := Code.opoll }

/-! ### Each micro-operation performs a move -/

theorem State.seqOk_iff (s : State) : s.seqOk = true ↔ s.seq.toNat < s.cfg.rows := by
  rw [State.seqOk, Nat.blt_eq]

theorem State.crcMatch_iff (s : State) : s.crcMatch = true ↔ s.rxcrc = s.crc := beq_iff_eq

theorem move_of_execOpoll {s t : State} (hs : s.state = Code.opoll) (h : execOpoll s = .next t) : Move s t := by
  unfold execOpoll at h
  split at h
  · cases h
    exact .complete hs ‹_›
  · split at h <;> cases h
    · exact .cancelled (.inl ⟨hs, ‹_›⟩) ‹_›
    · exact .turn hs ‹_› (by simpa using ‹¬ s.run = false›)

theorem move_of_execIpoll {s t : State} (hs : s.state = Code.ipoll) (h : execIpoll s = .next t) : Move s t := by
  unfold execIpoll at h
  split at h <;> cases h
  · exact .cancelled (.inr hs) ‹_›
  · exact .request hs (by simpa using ‹¬ s.run = false›)

theorem move_of_execXfer {s t : State} (hs : s.state = Code.xfer) (h : execXfer s = .next t) : Move s t := by
  unfold execXfer at h
  split at h
  · cases h
    exact .rest (.inr (.inr ⟨hs, ‹_›⟩))
  · split at h <;> cases h
    exact .receive hs ‹_› ‹_›
  · cases h
    exact .transportFault hs ‹_›

theorem move_of_execCompare {s t : State} (hs : s.state = Code.compare) (h : execCompare s = .next t) : Move s t := by
  unfold execCompare at h
  simp only [State.crcMatch_iff] at h
  split at h <;> cases h
  · exact .crcMatches hs ‹_›
  · exact .checksumFault hs ‹_›

theorem move_of_execSeqchk {s t : State} (hs : s.state = Code.seqchk) (h : execSeqchk s = .next t) : Move s t := by
  unfold execSeqchk at h
  simp only [State.seqOk_iff] at h
  split at h <;> cases h
  · exact .seqInRange hs ‹_›
  · exact .seqRangeFault hs ‹_›

theorem move_of_execStore {s t : State} (hs : s.state = Code.store) (h : execStore s = .next t) : Move s t := by
  unfold execStore at h
  simp only [State.seqOk_iff] at h
  split at h <;> cases h
  exact .store hs ‹_›

/-- A state whose micro-operation has no effect of its own rests. -/
theorem move_of_rest {s t : State} (hs : s.state.toNat ≤ 1 ∨ 14 ≤ s.state.toNat) (h : (.next s : Result) = .next t) :
    Move s t := by
  cases h
  exact .rest (hs.imp_right .inl)

/-- The micro-operation that `STATE` names performs a move (R19, R68). -/
theorem move_of_decodeState {s t : State} {i : Instr} (hd : decodeState s.state = .ok i) (h : exec i s = .next t) :
    Move s t := by
  have hs := encode_of_decodeState hd
  cases i <;> simp only [encode, Option.some.injEq, InstrWord.seq.injEq, reduceCtorEq] at hs <;> replace hs := hs.symm
  case idle | selected | done | cancelled | fault => exact move_of_rest (by rw [hs]; decide) h
  case opoll => exact move_of_execOpoll hs h
  case ipoll => exact move_of_execIpoll hs h
  case xfer => exact move_of_execXfer hs h
  case classify => cases h; exact .classify hs
  case seqx => cases h; exact .seqx hs
  case crcx => cases h; exact .crcx hs
  case canon => cases h; exact .canon hs
  case crcrun => cases h; exact .crcrun hs
  case compare => exact move_of_execCompare hs h
  case seqchk => exact move_of_execSeqchk hs h
  case store => exact move_of_execStore hs h
  case next => cases h; exact .next hs

/-! ### Packets taken whole are runs of moves (R127) -/

open Relation (ReflTransGen)

/-- SEQX, CRCX, CANON and CRCRUN lead to the prepared state. -/
theorem moves_prepared {s : State} (hs : s.state = Code.seqx) : ReflTransGen Move s s.prepared :=
  (((ReflTransGen.single (.seqx hs)).tail (.crcx rfl)).tail (.canon rfl)).tail (.crcrun rfl)

/-- PROCESS performed where the sequencer stands in SEQX is a run of moves, whichever way it ends (R94). -/
theorem moves_of_execProcess {s t : State} (hs : s.state = Code.seqx) (h : execProcess s = .next t) :
    ReflTransGen Move s t := by
  rw [execProcess_eq] at h
  refine (moves_prepared hs).trans ?_
  split at h
  next hm =>
    have toSeqchk : ReflTransGen Move s.prepared (s.prepared.goto Code.seqchk) := .single (.crcMatches rfl hm)
    split at h <;> cases h
    next hr => exact ((toSeqchk.tail (.seqInRange rfl hr)).tail (.store rfl hr)).tail (.next rfl)
    next hr => exact toSeqchk.tail (.seqRangeFault rfl hr)
  next hm =>
    cases h
    exact .single (.checksumFault rfl hm)

/-- Reception and classification of the answer of the transfer in flight are two moves. -/
theorem moves_classified {s : State} {p : List Byte} {rest : List Answer} (hw : s.cfg.wf = true)
    (hs : s.state = Code.xfer) (ha : s.answers = .ok p :: rest) (hl : p.length = s.cfg.pktLen) :
    ReflTransGen Move s (({ s with bus := rest }.receive p).classifyAs (carriesMarker s.cfg (headerOfBytes p))) := by
  have h2 : 2 ≤ p.length := by
    have := ((Config.wf_iff _).1 hw).1
    omega
  have hc : ({ s with bus := rest }.receive p).isDiscard = carriesMarker s.cfg (headerOfBytes p) := by
    rw [State.isDiscard, State.header_of_pkt h2 rfl]
    rfl
  have classified := (ReflTransGen.single (Move.receive hs ha hl)).tail (.classify rfl)
  rwa [hc] at classified

theorem moves_of_execDiscard {s t : State} {p : List Byte} {rest : List Answer} (hw : s.cfg.wf = true)
    (hs : s.state = Code.xfer) (ha : s.answers = .ok p :: rest) (hp : DiscardPacket s.cfg p)
    (h : execDiscard p { s with bus := rest } = .next t) : ReflTransGen Move s t := by
  have run := moves_classified hw hs ha hp.1
  unfold execDiscard at h
  rw [if_pos hs, if_pos hp.1] at h
  cases h
  rwa [hp.2] at run

theorem moves_of_execData {s t : State} {p : List Byte} {rest : List Answer} (hw : s.cfg.wf = true)
    (hs : s.state = Code.xfer) (ha : s.answers = .ok p :: rest) (hp : DataPacket s.cfg p)
    (h : execData p { s with bus := rest } = .next t) : ReflTransGen Move s t := by
  have run := moves_classified hw hs ha hp.1
  unfold execData at h
  rw [if_pos hs, if_pos hp.1] at h
  rw [hp.2] at run
  exact run.trans (moves_of_execProcess rfl h)

/-! ### The inputs -/

/-- `Input w s t`: the input that brings the word `w` takes `s` to `t` (R69, R73, R115, R116, R123, R125, R131). -/
inductive Input : InstrWord → State → State → Prop where
  /-- NOP, the reserved command, and a command that the state does not accept (R126). -/
  | ignored (c : BitVec 2) (s : State) : Input (.cmd c) s s
  | select {s : State} (c : BitVec 2) : s.state = Code.idle → Input (.cmd c) s { s with cs := true, state := Code.selected }
  | start {s : State} (c : BitVec 2) : s.state = Code.selected → Input (.cmd c) s { s with iter := 0, state := Code.opoll }
  | cancel (s : State) : Input (.cancel 1#1) s { s with run := false }
  | reset (s : State) : Input (.rst 1#1) s s.afterReset
  | read {s : State} (a : BitVec 13) (v : Half) (d : Nat) : s.busy = false →
      Input (.frameAddr a) s { s with readData := v, draws := d }
  /-- The engine used alone: `CRC` is written or kept (R73, R84). -/
  | engine {s : State} (e : BitVec 2) (b : Byte) (v x : Half) : s.cfg.engineAlone = true →
      Input (.engine e b v) s { s with crc := x }

theorem input_of_cmd {s t : State} {c : BitVec 2} (h : exec (decodeCmd c) s = .next t) : Input (.cmd c) s t := by
  unfold decodeCmd at h
  split at h
  · cases h
    exact .ignored c s
  · replace h : execSelect s = .next t := h
    unfold execSelect at h
    split at h <;> cases h
    · exact .select c ‹_›
    · exact .ignored c s
  · replace h : execStart s = .next t := h
    unfold execStart at h
    split at h <;> cases h
    · exact .start c ‹_›
    · exact .ignored c s
  · cases h
    exact .ignored c s

theorem input_of_frameRead {s t : State} {a : BitVec 13} (h : execFrameRead a s = .next t) :
    Input (.frameAddr a) s t := by
  unfold execFrameRead at h
  split at h
  · exact nomatch h
  · have hb : s.busy = false := by simpa using ‹¬ s.busy = true›
    split at h
    · exact nomatch h
    · split at h <;> cases h <;> exact .read a _ _ hb

theorem input_of_engine {s t : State} {e : BitVec 2} {b : Byte} {v : Half} (ha : s.cfg.engineAlone = true)
    (h : exec (decodeEngine e b v) s = .next t) : Input (.engine e b v) s t := by
  unfold decodeEngine at h
  split at h <;> cases h <;> exact .engine e b v _ ha

/-! ### One step -/

/-- One step that answers a next state serves one input, performs one move of the sequencer, or takes a packet whole, which
is a run of moves. -/
theorem step_moves {s t : State} (h : step s = .next t) :
    s.cfg.wf = true ∧
      (s.fetch = .seq s.state ∧ Move s.served t ∨
        (∃ p, s.fetch = .packet p) ∧ ReflTransGen Move s.served t ∨
        Input s.fetch s.served t) := by
  obtain ⟨hstop, i, hd, he⟩ := step_eq_next.1 h
  obtain ⟨hw, -, -, halone⟩ := State.stop_eq_none.1 hstop
  refine ⟨hw, ?_⟩
  have served : (∀ p, s.fetch ≠ .packet p) → exec i s.served = .next t := fun hp => by
    rwa [State.consume_of_not_packet hp] at he
  cases hf : s.fetch with
  | seq code =>
    obtain rfl := State.fetch_seq hf
    rw [hf] at hd served
    exact .inl ⟨rfl, move_of_decodeState hd (served nofun)⟩
  | packet p =>
    obtain ⟨hs, rest, ha⟩ := State.fetch_packet hf
    have hb := State.brings_of_decode hd
    rw [State.consume_of_packet hf, ha] at he
    rw [hf] at hd
    simp only [decode, decodePacket] at hd
    refine .inr (.inl ⟨⟨p, rfl⟩, ?_⟩)
    split at hd
    next =>
      cases hm : carriesMarker s.cfg (headerOfBytes p) <;> simp only [hm, Except.ok.injEq] at hd <;> subst hd
      · exact moves_of_execData hw hs ha ⟨‹_›, hm⟩ he
      · exact moves_of_execDiscard hw hs ha ⟨‹_›, hm⟩ he
    next => exact nomatch hd
  | cmd c =>
    rw [hf] at hd served
    cases hd
    exact .inr (.inr (input_of_cmd (served nofun)))
  | cancel line =>
    rw [hf] at hd served
    simp only [decode] at hd
    split at hd <;> cases hd
    subst line
    cases served nofun
    exact .inr (.inr (.cancel _))
  | rst line =>
    rw [hf] at hd served
    simp only [decode] at hd
    split at hd <;> cases hd
    subst line
    cases served nofun
    exact .inr (.inr (.reset _))
  | frameAddr a =>
    rw [hf] at hd served
    cases hd
    exact .inr (.inr (input_of_frameRead (served nofun)))
  | engine e b v =>
    have ha := halone ⟨e, b, v, hf⟩
    rw [hf] at hd served
    cases hd
    exact .inr (.inr (input_of_engine ha (served nofun)))

theorem Move.cfg_eq {s t : State} (h : Move s t) : t.cfg = s.cfg := by
  cases h <;> simp

/-- What every move keeps, a run of moves keeps. -/
theorem moves_keep {P : State → Prop} (hmove : ∀ s t : State, s.cfg.wf = true → P s → Move s t → P t)
    {s t : State}
    (hw : s.cfg.wf = true) (hs : P s) (h : ReflTransGen Move s t) : P t := by
  have both : t.cfg.wf = true ∧ P t := by
    induction h with
    | refl => exact ⟨hw, hs⟩
    | tail _ m ih => exact ⟨m.cfg_eq ▸ ih.1, hmove _ _ ih.1 ih.2 m⟩
  exact both.2

/-- What does not depend on the schedule and is kept by every move and by every input is kept by every step. -/
theorem step_keeps {P : State → Prop} (hserved : ∀ s : State, s.cfg.wf = true → P s → P s.served)
    (hmove : ∀ s t : State, s.cfg.wf = true → P s → Move s t → P t)
    (hinput : ∀ (w : InstrWord) (s t : State), s.cfg.wf = true → P s → Input w s t → P t) {s t : State}
    (hs : P s) (h : step s = .next t) : P t := by
  obtain ⟨hw, hcases⟩ := step_moves h
  have hp : P s.served := hserved s hw hs
  replace hw : s.served.cfg.wf = true := hw
  rcases hcases with ⟨-, m⟩ | ⟨-, run⟩ | i
  · exact hmove _ _ hw hp m
  · exact moves_keep hmove hw hp run
  · exact hinput _ _ _ hw hp i

end Sys2Proof.Machine
end

section
/-! PROOFS. The control invariant: every move and every input keeps it, so every step does. -/

namespace Sys2Proof.Machine

namespace ControlInv

variable {s t : State}

/-- Outside FAULT no error class is recorded. -/
theorem err_eq_zero (h : ControlInv s) {code : BitVec 5} (hs : s.state = code) (hc : code ≠ Code.fault) :
    s.err = 0#3 :=
  h.errOnlyInFault.2 (hs ▸ hc)

/-- The invariant speaks of five items only. -/
theorem of_eq (h : ControlInv s) (hcfg : t.cfg = s.cfg) (hstate : t.state = s.state) (herr : t.err = s.err)
    (hcs : t.cs = s.cs) (hiter : t.iter = s.iter) : ControlInv t where
  config := hcfg ▸ h.config
  stateCode := hstate ▸ h.stateCode
  errCode := herr ▸ h.errCode
  errOnlyInFault := hstate ▸ herr ▸ h.errOnlyInFault
  chipSelect := hstate ▸ hcs ▸ h.chipSelect
  iterBound := hcfg ▸ hiter ▸ h.iterBound
  iterBeforeStart := hstate ▸ hiter ▸ h.iterBeforeStart
  iterInTurn := hstate ▸ hcfg ▸ hiter ▸ h.iterInTurn
  iterAtDone := hstate ▸ hcfg ▸ hiter ▸ h.iterAtDone

/-- A control transfer to a code of the loop, OPOLL to NEXT, with the line asserted before and kept: what remains to be said is
the range of `ITER`. -/
theorem of_loop (h : ControlInv s) {code : BitVec 5} (code' : BitVec 5) (hs : s.state = code) (ht : t.state = code')
    (hc : 1 ≤ code.toNat ∧ code.toNat ≤ 13) (hc' : 2 ≤ code'.toNat ∧ code'.toNat ≤ 13) (hcfg : t.cfg = s.cfg)
    (herr : t.err = s.err) (hcs : t.cs = s.cs) (hle : t.iter ≤ s.cfg.nIter)
    (hlt : 3 ≤ code'.toNat → t.iter < s.cfg.nIter) : ControlInv t := by
  have below_terminal {c : BitVec 5} (hc : c.toNat ≤ 13) : c ≠ Code.fault ∧ c ≠ Code.done :=
    ⟨fun e => absurd (e ▸ hc) (by decide), fun e => absurd (e ▸ hc) (by decide)⟩
  subst hs ht
  exact {
    config := hcfg ▸ h.config
    stateCode := by omega
    errCode := herr ▸ h.errCode
    errOnlyInFault := iff_of_true (herr.trans (h.errOnlyInFault.2 (below_terminal hc.2).1)) (below_terminal hc'.2).1
    chipSelect := iff_of_true (hcs.trans (h.chipSelect.2 hc)) (by omega)
    iterBound := hcfg ▸ hle
    iterBeforeStart := fun _ => by omega
    iterInTurn := fun h3 _ => hcfg ▸ hlt h3
    iterAtDone := fun e => absurd e (below_terminal hc'.2).2 }

/-- A control transfer within a turn of the outer loop, IPOLL to NEXT. -/
theorem of_turn (h : ControlInv s) {code : BitVec 5} (code' : BitVec 5) (hs : s.state = code) (ht : t.state = code')
    (hc : 3 ≤ code.toNat ∧ code.toNat ≤ 13) (hc' : 3 ≤ code'.toNat ∧ code'.toNat ≤ 13) (hcfg : t.cfg = s.cfg)
    (herr : t.err = s.err) (hcs : t.cs = s.cs) (hiter : t.iter = s.iter) : ControlInv t :=
  have hlt : t.iter < s.cfg.nIter := hiter ▸ h.iterInTurn (hs ▸ hc.1) (hs ▸ hc.2)
  h.of_loop code' hs ht (by omega) (by omega) hcfg herr hcs hlt.le fun _ => hlt

/-- The entry to a terminal state: the line is deasserted. -/
theorem of_terminal (h : ControlInv s) (code : BitVec 5) (ht : t.state = code)
    (hc : 14 ≤ code.toNat ∧ code.toNat ≤ 16) (hcfg : t.cfg = s.cfg) (herr : t.err.toNat ≤ 3)
    (herr' : t.err = 0#3 ↔ code ≠ Code.fault) (hcs : t.cs = false) (hiter : t.iter = s.iter)
    (hdone : code = Code.done → s.iter = s.cfg.nIter) : ControlInv t := by
  subst ht
  exact {
    config := hcfg ▸ h.config
    stateCode := hc.2
    errCode := herr
    errOnlyInFault := herr'
    chipSelect := iff_of_false (by simp [hcs]) (by omega)
    iterBound := hcfg ▸ hiter ▸ h.iterBound
    iterBeforeStart := fun _ => by omega
    iterInTurn := fun _ _ => by omega
    iterAtDone := fun e => by rw [hcfg, hiter, hdone e] }

theorem of_fault (h : ControlInv s) (code : BitVec 3) (herr : t.err = code) (hc : code ≠ 0#3 ∧ code.toNat ≤ 3)
    (ht : t.state = Code.fault) (hcfg : t.cfg = s.cfg) (hcs : t.cs = false) (hiter : t.iter = s.iter) : ControlInv t :=
  h.of_terminal Code.fault ht (by decide) hcfg (herr ▸ hc.2) (iff_of_false (herr ▸ hc.1) (by decide)) hcs hiter
    fun e => absurd e (by decide)

theorem enterCancelled (h : ControlInv s) (herr : s.err = 0#3) : ControlInv s.enterCancelled :=
  h.of_terminal Code.cancelled rfl (by decide) rfl h.errCode (iff_of_true herr (by decide)) rfl rfl
    fun e => absurd e (by decide)

theorem enterDone (h : ControlInv s) (herr : s.err = 0#3) (hi : s.iter = s.cfg.nIter) : ControlInv s.enterDone :=
  h.of_terminal Code.done rfl (by decide) rfl h.errCode (iff_of_true herr (by decide)) rfl rfl fun _ => hi

/-- A state before START, where `ITER` is 0: IDLE, or SELECTED with the line asserted. -/
theorem of_waiting (code : BitVec 5) (ht : t.state = code) (hc : code.toNat ≤ 1) (hw : t.cfg.wf = true)
    (herr : t.err = 0#3) (hiter : t.iter = 0) (hcs : t.cs = true ↔ 1 ≤ code.toNat) : ControlInv t := by
  subst ht
  exact {
    config := hw
    stateCode := by omega
    errCode := by simp [herr]
    errOnlyInFault := iff_of_true herr fun e => absurd (e ▸ hc) (by decide)
    chipSelect := hcs.trans (by omega)
    iterBound := by omega
    iterBeforeStart := fun _ => hiter
    iterInTurn := by omega
    iterAtDone := fun e => absurd (e ▸ hc) (by decide) }

/-- Every move keeps the control invariant. -/
theorem move (h : ControlInv s) (m : Move s t) : ControlInv t := by
  cases m with
  | rest _ => exact h
  | complete hs hi => exact h.enterDone (h.err_eq_zero hs (by decide)) hi
  | cancelled hs _ =>
    refine h.enterCancelled (h.errOnlyInFault.2 ?_)
    rcases hs with ⟨hs, -⟩ | hs <;> rw [hs] <;> decide
  | turn hs hi _ =>
    exact h.of_loop Code.ipoll hs rfl (by decide) (by decide) rfl rfl rfl h.iterBound fun _ => lt_of_le_of_ne h.iterBound hi
  | request hs _ => exact h.of_turn Code.xfer hs rfl (by decide) (by decide) rfl rfl rfl rfl
  | receive hs _ _ => exact h.of_turn Code.classify hs rfl (by decide) (by decide) rfl rfl rfl rfl
  | transportFault _ _ => exact h.of_fault 1#3 rfl (by decide) rfl rfl rfl rfl
  | classify hs =>
    cases s.isDiscard with
    | true => exact h.of_turn Code.ipoll hs rfl (by decide) (by decide) rfl rfl rfl rfl
    | false => exact h.of_turn Code.seqx hs rfl (by decide) (by decide) rfl rfl rfl rfl
  | seqx hs => exact h.of_turn Code.crcx hs rfl (by decide) (by decide) rfl rfl rfl rfl
  | crcx hs => exact h.of_turn Code.canon hs rfl (by decide) (by decide) rfl rfl rfl rfl
  | canon hs => exact h.of_turn Code.crcrun hs rfl (by decide) (by decide) rfl rfl rfl rfl
  | crcrun hs => exact h.of_turn Code.compare hs rfl (by decide) (by decide) rfl rfl rfl rfl
  | crcMatches hs _ => exact h.of_turn Code.seqchk hs rfl (by decide) (by decide) rfl rfl rfl rfl
  | checksumFault _ _ => exact h.of_fault 2#3 rfl (by decide) rfl rfl rfl rfl
  | seqInRange hs _ => exact h.of_turn Code.store hs rfl (by decide) (by decide) rfl rfl rfl rfl
  | seqRangeFault _ _ => exact h.of_fault 3#3 rfl (by decide) rfl rfl rfl rfl
  | store hs _ => exact h.of_turn Code.next hs rfl (by decide) (by decide) rfl rfl rfl rfl
  | next hs =>
    have hlt := h.iterInTurn (hs ▸ by decide) (hs ▸ by decide)
    exact h.of_loop Code.opoll hs rfl (by decide) (by decide) rfl rfl rfl hlt fun h3 => absurd h3 (by decide)

/-- Every input keeps the control invariant. -/
theorem input (h : ControlInv s) {w : InstrWord} (i : Input w s t) : ControlInv t := by
  cases i with
  | ignored _ _ => exact h
  | select _ hs =>
    have hi : s.iter = 0 := h.iterBeforeStart (hs ▸ by decide)
    exact of_waiting Code.selected rfl (by decide) h.config (h.err_eq_zero hs (by decide)) hi (iff_of_true rfl (by decide))
  | start _ hs =>
    exact h.of_loop Code.opoll hs rfl (by decide) (by decide) rfl rfl rfl (Nat.zero_le _)
      fun h3 => absurd h3 (by decide)
  | cancel _ => exact h.of_eq rfl rfl rfl rfl rfl
  | reset _ => exact of_waiting Code.idle rfl (by decide) h.config rfl rfl (iff_of_false (by simp) (by decide))
  | read _ _ _ _ => exact h.of_eq rfl rfl rfl rfl rfl
  | engine _ _ _ _ _ => exact h.of_eq rfl rfl rfl rfl rfl

end ControlInv

/-- Settles O49: the moves of the sequencer and the inputs each keep the invariant, and a packet taken whole is a run of
moves. -/
theorem stepKeepsControlInvariant : Obligations.StepKeepsControlInvariant := fun _ _ h =>
  step_keeps (fun _ _ h => h.of_eq rfl rfl rfl rfl rfl) (fun _ _ _ h => h.move) (fun _ _ _ _ h => h.input) h

end Sys2Proof.Machine
end

section
/-! PROOFS. The invariant of the packet buffer, the table and the frame: the memories, and the packet by its stage. -/

namespace Sys2Proof.Machine

/-! ### The memories and the packet's stages -/

/-- The part of the invariant that no code of `STATE` enters: the table, and both buffers in canonical form and inside their
address spaces. -/
structure MemoriesInv (s : State) : Prop where
  wholeBlock : s.cfg.engineAlone = false
  tableConstants : s.table = crcTable
  pktCanonicalForm : s.pkt.wf = true
  pktSpace : s.pkt.within s.cfg.pktLen = true
  frameCanonicalForm : s.frame.wf = true
  frameSpace : s.frame.within (frameCells s.cfg) = true

/-- What has been established of the packet in `PKT` when control stands at code `n` (R29, R97 to R101). -/
structure PacketAt (n : Nat) (s : State) : Prop where
  received : 5 ≤ n → s.pkt.full s.cfg.pktLen = true
  canonicalized : 9 ≤ n → flagsOfHeader s.cfg s.header = 0#16 ∧ s.pkt.read 2 = some 0#8 ∧ s.pkt.read 3 = some 0#8
  recomputed : 10 ≤ n → s.crc = checksum crcTable 0#16 (s.pktBytes 0 s.cfg.pktLen)
  matched : 11 ≤ n → s.rxcrc = s.crc
  inRange : 12 ≤ n → s.seq.toNat < s.cfg.rows

theorem bufferInv_iff (s : State) :
    BufferInv s ↔ MemoriesInv s ∧ (s.state = Code.xfer → s.pkt = []) ∧
      (s.state.toNat ≤ 13 → PacketAt s.state.toNat s) := by
  constructor
  · intro h
    exact ⟨⟨h.wholeBlock, h.tableConstants, h.pktCanonicalForm, h.pktSpace, h.frameCanonicalForm, h.frameSpace⟩, h.inFlight,
      fun hn => ⟨fun h5 => h.received h5 hn, fun h9 => h.canonicalized h9 hn, fun h10 => h.recomputed h10 hn,
        fun h11 => h.matched h11 hn, fun h12 => h.inRange h12 hn⟩⟩
  · rintro ⟨hm, hx, hp⟩
    exact ⟨hm.wholeBlock, hm.tableConstants, hm.pktCanonicalForm, hm.pktSpace, hm.frameCanonicalForm, hm.frameSpace, hx,
      fun h5 hn => (hp hn).received h5, fun h9 hn => (hp hn).canonicalized h9, fun h10 hn => (hp hn).recomputed h10,
      fun h11 hn => (hp hn).matched h11, fun h12 hn => (hp hn).inRange h12⟩

/-- In a full packet buffer the header word read does not depend on the draw counter. -/
theorem State.header_of_full {s t : State} {n : Nat} (hn : 2 ≤ n) (hp : t.pkt = s.pkt) (hf : s.pkt.full n = true) :
    t.header = s.header := by
  rw [State.header, State.header, State.pktByte_of_full hp hf (by omega), State.pktByte_of_full hp hf (by omega)]

namespace PacketAt

variable {s t : State} {n : Nat}

/-- Before CLASSIFY nothing is said of the packet. -/
theorem of_lt (hn : n < 5) (s : State) : PacketAt n s := by
  constructor <;> omega

/-- Up to CANON a whole packet is all there is to say. -/
theorem of_full (hn : n ≤ 8) (hf : s.pkt.full s.cfg.pktLen = true) : PacketAt n s := by
  constructor
  case received => exact fun _ => hf
  all_goals omega

/-- What has been established does not depend on the draw counter, but only on the datapath. -/
theorem of_eq (h : PacketAt n s) (hw : s.cfg.wf = true) (hcfg : t.cfg = s.cfg) (hpkt : t.pkt = s.pkt)
    (hcrc : t.crc = s.crc) (hrxcrc : t.rxcrc = s.rxcrc) (hseq : t.seq = s.seq) : PacketAt n t where
  received := hcfg ▸ hpkt ▸ h.received
  canonicalized hn := by
    have hl := ((Config.wf_iff _).1 hw).1
    rw [hcfg, State.header_of_full (by omega) hpkt (h.received (by omega)), hpkt]
    exact h.canonicalized hn
  recomputed hn := by
    rw [hcfg, State.pktBytes_of_full hpkt (h.received (by omega)), hcrc]
    exact h.recomputed hn
  matched hn := by rw [hcrc, hrxcrc, h.matched hn]
  inRange := hcfg ▸ hseq ▸ h.inRange

/-- CRCRUN computes the checksum over the bytes that the packet still has afterwards. -/
theorem crcrun (h : PacketAt 9 s) (hcfg : t.cfg = s.cfg) (hpkt : t.pkt = s.pkt) (hheader : t.header = s.header)
    (hcrc : t.crc = checksum crcTable 0#16 (s.pktBytes 0 s.cfg.pktLen)) : PacketAt 10 t := by
  have hfull := h.received (by decide)
  refine ⟨fun _ => hcfg ▸ hpkt ▸ hfull, fun _ => ?_, fun _ => ?_, by omega, by omega⟩
  · exact hcfg ▸ hheader ▸ hpkt ▸ h.canonicalized (by decide)
  · rw [hcrc, hcfg, State.pktBytes_of_full hpkt hfull]

theorem seqchk (h : PacketAt 10 s) (hm : s.rxcrc = s.crc) : PacketAt 11 s :=
  ⟨fun _ => h.received (by decide), fun _ => h.canonicalized (by decide), fun _ => h.recomputed (by decide), fun _ => hm,
    by omega⟩

theorem store (h : PacketAt 11 s) (hr : s.seq.toNat < s.cfg.rows) : PacketAt 12 s :=
  ⟨fun _ => h.received (by decide), fun _ => h.canonicalized (by decide), fun _ => h.recomputed (by decide),
    fun _ => h.matched (by decide), fun _ => hr⟩

theorem next (h : PacketAt 12 s) : PacketAt 13 s :=
  ⟨fun _ => h.received (by decide), fun _ => h.canonicalized (by decide), fun _ => h.recomputed (by decide),
    fun _ => h.matched (by decide), fun _ => h.inRange (by decide)⟩

end PacketAt

/-! ### CANON -/

theorem State.canonicalPkt_wf {s : State} (h : s.pkt.wf = true) : s.canonicalPkt.wf = true :=
  Memory.wf_write _ _ (Memory.wf_write _ _ (Memory.wf_write _ _ (Memory.wf_write _ _ h)))

theorem State.canonicalPkt_within {s : State} {n : Nat} (hn : 4 ≤ n) (h : s.pkt.within n = true) :
    s.canonicalPkt.within n = true :=
  Memory.within_write _ (Memory.within_write _ (Memory.within_write _ (Memory.within_write _ h (by omega)) (by omega))
    (by omega)) (by omega)

theorem State.canonicalPkt_full {s : State} {n : Nat} (h : s.pkt.full n = true) : s.canonicalPkt.full n = true :=
  Memory.full_write _ _ (Memory.full_write _ _ (Memory.full_write _ _ (Memory.full_write _ _ h)))

/-- The four bytes that CANON writes, and every other byte as it was (R97). -/
theorem State.canonicalPkt_read (s : State) (i : Nat) :
    s.canonicalPkt.read i =
      if i = 3 then some 0#8 else if i = 2 then some 0#8
      else if i = 1 then some ((clearFlags s.cfg s.header).extractLsb' 0 8)
      else if i = 0 then some ((clearFlags s.cfg s.header).extractLsb' 8 8) else s.pkt.read i := by
  simp only [State.canonicalPkt, Memory.read_write]

theorem flagsOfHeader_clearFlags (c : Config) (h : Half) : flagsOfHeader c (clearFlags c h) = 0#16 := by
  simp [flagsOfHeader, clearFlags, BitVec.and_assoc]

/-- After CANON the header word is the old one with its flag bits cleared. -/
theorem State.header_of_canonicalPkt {s t : State} (h : t.pkt = s.canonicalPkt) :
    t.header = clearFlags s.cfg s.header := by
  have h0 : t.pktByte 0 = (clearFlags s.cfg s.header).extractLsb' 8 8 :=
    State.pktByte_of_read (by rw [h, State.canonicalPkt_read]; rfl)
  have h1 : t.pktByte 1 = (clearFlags s.cfg s.header).extractLsb' 0 8 :=
    State.pktByte_of_read (by rw [h, State.canonicalPkt_read]; rfl)
  rw [State.header, h0, h1, joinBytes_split]

theorem PacketAt.canon {s t : State} {n : Nat} (h : PacketAt n s) (hn : 5 ≤ n) (hcfg : t.cfg = s.cfg)
    (hpkt : t.pkt = s.canonicalPkt) : PacketAt 9 t := by
  refine ⟨fun _ => ?_, fun _ => ⟨?_, ?_, ?_⟩, by omega, by omega, by omega⟩
  · rw [hcfg, hpkt]
    exact State.canonicalPkt_full (h.received hn)
  · rw [hcfg, State.header_of_canonicalPkt hpkt, flagsOfHeader_clearFlags]
  · rw [hpkt, State.canonicalPkt_read]
    rfl
  · rw [hpkt, State.canonicalPkt_read]
    rfl

/-! ### The invariant -/

namespace MemoriesInv

variable {s t : State}

/-- Where table, buffers and configuration stay, so does their part of the invariant. -/
theorem of_eq (h : MemoriesInv s) (hcfg : t.cfg = s.cfg) (htable : t.table = s.table) (hpkt : t.pkt = s.pkt)
    (hframe : t.frame = s.frame) : MemoriesInv t := by
  obtain ⟨h1, h2, h3, h4, h5, h6⟩ := h
  constructor <;> simp only [hcfg, htable, hpkt, hframe, h1, h2, h3, h4, h5, h6]

/-- The packet buffer may be written, in canonical form and inside its address space. -/
theorem with_pkt (h : MemoriesInv s) (hcfg : t.cfg = s.cfg) (htable : t.table = s.table) (hframe : t.frame = s.frame)
    (hwf : t.pkt.wf = true) (hin : t.pkt.within s.cfg.pktLen = true) : MemoriesInv t := by
  obtain ⟨h1, h2, -, -, h5, h6⟩ := h
  constructor <;> simp only [hcfg, htable, hframe, hwf, hin, h1, h2, h5, h6]

/-- So may the frame. -/
theorem with_frame (h : MemoriesInv s) (hcfg : t.cfg = s.cfg) (htable : t.table = s.table) (hpkt : t.pkt = s.pkt)
    (hwf : t.frame.wf = true) (hin : t.frame.within (frameCells s.cfg) = true) : MemoriesInv t := by
  obtain ⟨h1, h2, h3, h4, -, -⟩ := h
  constructor <;> simp only [hcfg, htable, hpkt, hwf, hin, h1, h2, h3, h4]

/-- A row stored lies inside the frame (R110). -/
theorem storeRow (h : MemoriesInv s) (hr : s.seq.toNat < s.cfg.rows) (hcfg : t.cfg = s.cfg) (htable : t.table = s.table)
    (hpkt : t.pkt = s.pkt) (hframe : t.frame = s.frame.writeFrom (cellAddress s.cfg s.seq.toNat 0) s.samples) :
    MemoriesInv t := by
  refine h.with_frame hcfg htable hpkt ?_ ?_
  · exact hframe ▸ Memory.wf_writeFrom _ _ h.frameCanonicalForm
  · have hl : s.samples.length = s.cfg.cols := by simp [State.samples]
    exact hframe ▸ Memory.within_writeFrom _ h.frameSpace (hl ▸ cellAddress_row_le hr)

end MemoriesInv

namespace BufferInv

variable {s t : State}

theorem memories (h : BufferInv s) : MemoriesInv s := ((bufferInv_iff s).1 h).1

theorem packetAt (h : BufferInv s) {code : BitVec 5} (hs : s.state = code) (hc : code.toNat ≤ 13) :
    PacketAt code.toNat s :=
  hs ▸ ((bufferInv_iff s).1 h).2.2 (hs ▸ hc)

/-- Control at a code other than XFER, with what has to be established there. -/
theorem of_packetAt (code : BitVec 5) (ht : t.state = code) (hm : MemoriesInv t) (hx : code ≠ Code.xfer)
    (hp : code.toNat ≤ 13 → PacketAt code.toNat t) : BufferInv t :=
  (bufferInv_iff t).2 ⟨hm, fun e => absurd (ht ▸ e) hx, ht ▸ hp⟩

/-- Control at a code where no packet is processed and no transfer in flight: only the memories count. -/
theorem of_memories (code : BitVec 5) (ht : t.state = code) (hc : code.toNat ≤ 3 ∨ 14 ≤ code.toNat)
    (hm : MemoriesInv t) : BufferInv t :=
  of_packetAt code ht hm (fun e => absurd (e ▸ hc) (by decide)) fun _ => .of_lt (by omega) t

/-- The same control and the same buffers: the draw counter and the outputs do not count. -/
theorem of_eq (h : BufferInv s) (hw : s.cfg.wf = true) (hstate : t.state = s.state) (hcfg : t.cfg = s.cfg)
    (htable : t.table = s.table) (hpkt : t.pkt = s.pkt) (hframe : t.frame = s.frame) (hcrc : t.crc = s.crc)
    (hrxcrc : t.rxcrc = s.rxcrc) (hseq : t.seq = s.seq) : BufferInv t :=
  (bufferInv_iff t).2 ⟨h.memories.of_eq hcfg htable hpkt hframe, hstate ▸ hpkt ▸ h.inFlight, fun hn =>
    hstate ▸ (h.packetAt rfl (hstate ▸ hn)).of_eq hw hcfg hpkt hcrc hrxcrc hseq⟩

/-- Every move keeps the invariant: what a packet has passed is established one code after another. -/
theorem move (hw : s.cfg.wf = true) (h : BufferInv s) (m : Move s t) : BufferInv t := by
  have hm := h.memories
  have hl : 4 ≤ s.cfg.pktLen := by
    have := ((Config.wf_iff _).1 hw).1
    omega
  cases m with
  | rest _ => exact h
  | complete _ _ => exact of_memories Code.done rfl (by decide) (hm.of_eq rfl rfl rfl rfl)
  | cancelled _ _ => exact of_memories Code.cancelled rfl (by decide) (hm.of_eq rfl rfl rfl rfl)
  | turn _ _ _ => exact of_memories Code.ipoll rfl (by decide) (hm.of_eq rfl rfl rfl rfl)
  | request _ _ =>
    exact (bufferInv_iff _).2 ⟨hm.with_pkt rfl rfl rfl rfl rfl, fun _ => rfl, fun _ => .of_lt (by simp) _⟩
  | receive _ _ hlen =>
    refine of_packetAt Code.classify rfl (hm.with_pkt rfl rfl rfl (Memory.wf_ofList _ _) ?_) (by decide) fun _ => ?_
    · exact Memory.within_ofList _ (by omega)
    · exact .of_full (by decide) (hlen ▸ Memory.full_ofList _)
  | transportFault _ _ => exact of_memories Code.fault rfl (by decide) (hm.with_pkt rfl rfl rfl rfl rfl)
  | classify hs =>
    have hfull := (h.packetAt hs (by decide)).received (by decide)
    cases s.isDiscard with
    | true => exact of_memories Code.ipoll rfl (by decide) (hm.of_eq rfl rfl rfl rfl)
    | false =>
      exact of_packetAt Code.seqx rfl (hm.of_eq rfl rfl rfl rfl) (by decide) fun _ => .of_full (by decide) hfull
  | seqx hs =>
    have hfull := (h.packetAt hs (by decide)).received (by decide)
    exact of_packetAt Code.crcx rfl (hm.of_eq rfl rfl rfl rfl) (by decide) fun _ => .of_full (by decide) hfull
  | crcx hs =>
    have hfull := (h.packetAt hs (by decide)).received (by decide)
    exact of_packetAt Code.canon rfl (hm.of_eq rfl rfl rfl rfl) (by decide) fun _ => .of_full (by decide) hfull
  | canon hs =>
    exact of_packetAt Code.crcrun rfl
      (hm.with_pkt rfl rfl rfl (State.canonicalPkt_wf hm.pktCanonicalForm) (State.canonicalPkt_within hl hm.pktSpace))
      (by decide) fun _ => (h.packetAt hs (by decide)).canon (by decide) rfl rfl
  | crcrun hs =>
    have hp := h.packetAt hs (by decide)
    refine of_packetAt Code.compare rfl (hm.of_eq rfl rfl rfl rfl) (by decide) fun _ => hp.crcrun rfl rfl ?_ ?_
    · exact State.header_of_full (by omega) rfl (hp.received (by decide))
    · exact congrArg (fun table => checksum table 0#16 (s.pktBytes 0 s.cfg.pktLen)) hm.tableConstants
  | crcMatches hs heq =>
    exact of_packetAt Code.seqchk rfl (hm.of_eq rfl rfl rfl rfl) (by decide) fun _ =>
      ((h.packetAt hs (by decide)).seqchk heq).of_eq hw rfl rfl rfl rfl rfl
  | checksumFault _ _ => exact of_memories Code.fault rfl (by decide) (hm.of_eq rfl rfl rfl rfl)
  | seqInRange hs hr =>
    exact of_packetAt Code.store rfl (hm.of_eq rfl rfl rfl rfl) (by decide) fun _ =>
      ((h.packetAt hs (by decide)).store hr).of_eq hw rfl rfl rfl rfl rfl
  | seqRangeFault _ _ => exact of_memories Code.fault rfl (by decide) (hm.of_eq rfl rfl rfl rfl)
  | store hs hr =>
    exact of_packetAt Code.next rfl (hm.storeRow hr rfl rfl rfl rfl) (by decide) fun _ =>
      (h.packetAt hs (by decide)).next.of_eq hw rfl rfl rfl rfl rfl
  | next _ => exact of_memories Code.opoll rfl (by decide) (hm.of_eq rfl rfl rfl rfl)

/-- Every input keeps the invariant; those of the engine do not reach the whole block (R33). -/
theorem input (hw : s.cfg.wf = true) (h : BufferInv s) {w : InstrWord} (i : Input w s t) : BufferInv t := by
  have hm := h.memories
  cases i with
  | ignored _ _ => exact h
  | select _ _ => exact of_memories Code.selected rfl (by decide) (hm.of_eq rfl rfl rfl rfl)
  | start _ _ => exact of_memories Code.opoll rfl (by decide) (hm.of_eq rfl rfl rfl rfl)
  | cancel _ => exact h.of_eq hw rfl rfl rfl rfl rfl rfl rfl rfl
  | reset _ => exact of_memories Code.idle rfl (by decide) ⟨hm.wholeBlock, rfl, rfl, rfl, rfl, rfl⟩
  | read _ _ _ _ => exact h.of_eq hw rfl rfl rfl rfl rfl rfl rfl rfl
  | engine _ _ _ _ ha => exact absurd ha (by simp [hm.wholeBlock])

end BufferInv

/-- Settles O50: the moves of the sequencer and the inputs each keep the invariant, and a packet taken whole is a run of
moves. -/
theorem stepKeepsBufferInvariant : Obligations.StepKeepsBufferInvariant := fun _ _ h =>
  step_keeps (fun _ hw h => h.of_eq hw rfl rfl rfl rfl rfl rfl rfl rfl) (fun _ _ hw h => h.move hw)
    (fun _ _ _ hw h => h.input hw) h

end Sys2Proof.Machine
end

section
/-! PROOFS. The bookkeeping invariant: the trace against `POS`, `ITER` and the frame. -/

namespace Sys2Proof.Machine

/-! ### Trace counts -/

theorem transfers_append (a b : List TraceEvent) : transfers (a ++ b) = transfers a + transfers b :=
  List.countP_append

theorem rowWrites_append (a b : List TraceEvent) : rowWrites (a ++ b) = rowWrites a + rowWrites b :=
  List.countP_append

/-! ### A row stored -/

section StoreRow

variable {m : Memory 16} {c : Config} {r : Nat} {row : List Half}

/-- Every cell of the row stored holds a value. -/
theorem read_row_of_storeRow (hl : row.length = c.cols) {k : Nat} (hk : k < c.cols) :
    ∃ v, (m.writeFrom (cellAddress c r 0) row).read (cellAddress c r k) = some v := by
  rw [Memory.read_writeFrom, dif_pos (by simp only [cellAddress]; omega)]
  exact ⟨_, rfl⟩

/-- A cell that held a value still holds one. -/
theorem read_of_storeRow {a : Nat} (h : ∃ v, m.read a = some v) :
    ∃ v, (m.writeFrom (cellAddress c r 0) row).read a = some v := by
  rw [Memory.read_writeFrom]
  split
  · exact ⟨_, rfl⟩
  · exact h

/-- A cell that holds a value lies in the row stored or held one before. -/
theorem row_or_read_of_storeRow (hl : row.length = c.cols) {a : Nat} {v : Half}
    (h : (m.writeFrom (cellAddress c r 0) row).read a = some v) : a / c.cols = r ∨ m.read a = some v := by
  rw [Memory.read_writeFrom] at h
  split at h
  next hin =>
    simp only [cellAddress, hl] at hin
    exact .inl (Nat.div_eq_of_lt_le (by omega) (by rw [Nat.succ_mul]; omega))
  next => exact .inr h

end StoreRow

/-! ### The invariant -/

namespace TraceInv

variable {s t : State}

/-- The invariant speaks of the bookkeeping, the frame, the count and whether control stands in NEXT or before START. -/
theorem of_untouched (h : TraceInv s) (htrace : t.trace = s.trace) (hpos : t.pos = s.pos) (hframe : t.frame = s.frame)
    (hcfg : t.cfg = s.cfg) (hiter : t.iter = s.iter) (hnext : t.state = Code.next ↔ s.state = Code.next)
    (hstart : t.state.toNat ≤ 1 → s.iter = 0) : TraceInv t where
  transfersCounted := by rw [htrace, hpos, h.transfersCounted]
  writesCounted := by simp only [htrace, hiter, hnext, h.writesCounted]
  nothingBeforeStart := hiter ▸ hstart
  cellsFromRows := hframe ▸ hcfg ▸ htrace ▸ h.cellsFromRows
  rowsInCells := hframe ▸ hcfg ▸ htrace ▸ h.rowsInCells

/-- An event that is no row write may be recorded, as long as `POS` counts it if it is a transfer. -/
theorem log (h : TraceInv s) (e : TraceEvent) (he : rowWrites [e] = 0) (n : Nat) (hn : n = s.pos + transfers [e]) :
    TraceInv { s with trace := s.trace ++ [e], pos := n } where
  transfersCounted := by
    show transfers (s.trace ++ [e]) = n
    rw [transfers_append, h.transfersCounted, hn]
  writesCounted := by
    show rowWrites (s.trace ++ [e]) = _
    rw [rowWrites_append, he, h.writesCounted]
    rfl
  nothingBeforeStart := h.nothingBeforeStart
  cellsFromRows a v hv := by
    obtain ⟨k, hk⟩ := h.cellsFromRows a v hv
    exact ⟨k, List.mem_append_left _ hk⟩
  rowsInCells k r hr := by
    refine h.rowsInCells k r ((List.mem_append.1 hr).resolve_right fun hmem => ?_)
    exact absurd rfl (List.countP_eq_zero.1 he _ hmem)

/-- Bookkeeping, frame and count untouched, and control neither in nor going to NEXT or back before START. -/
theorem of_goto (h : TraceInv s) (code code' : BitVec 5) (hs : s.state = code) (ht : t.state = code')
    (hc : code ≠ Code.next ∧ code' ≠ Code.next ∧ 2 ≤ code'.toNat) (htrace : t.trace = s.trace) (hpos : t.pos = s.pos)
    (hframe : t.frame = s.frame) (hcfg : t.cfg = s.cfg) (hiter : t.iter = s.iter) : TraceInv t :=
  h.of_untouched htrace hpos hframe hcfg hiter (iff_of_false (ht ▸ hc.2.1) (hs ▸ hc.1)) fun h1 =>
    absurd (ht ▸ h1) (by omega)

/-- STORE records the write of the row whose cells it writes; the write counts ahead of `ITER` until NEXT (R111). -/
theorem store (h : TraceInv s) (hs : s.state = Code.store) (hr : s.seq.toNat < s.cfg.rows) (ht : t.state = Code.next)
    (hframe : t.frame = s.frame.writeFrom (cellAddress s.cfg s.seq.toNat 0) s.samples)
    (htrace : t.trace = s.trace ++ [TraceEvent.rowWrite s.pos s.seq.toNat]) (hpos : t.pos = s.pos)
    (hcfg : t.cfg = s.cfg) (hiter : t.iter = s.iter) : TraceInv t := by
  have hl : s.samples.length = s.cfg.cols := by simp [State.samples]
  constructor
  case transfersCounted => rw [htrace, hpos, transfers_append, h.transfersCounted]; rfl
  case writesCounted =>
    have hw := h.writesCounted
    rw [if_neg (hs ▸ by decide)] at hw
    rw [htrace, hiter, if_pos ht, rowWrites_append, hw]
    rfl
  case nothingBeforeStart => exact fun h1 => absurd (ht ▸ h1) (by decide)
  case cellsFromRows =>
    intro a v hv
    rw [htrace, hcfg]
    rcases row_or_read_of_storeRow hl (hframe ▸ hv) with hrow | hread
    · exact ⟨s.pos, List.mem_append_right _ (by simp [hrow])⟩
    · obtain ⟨k, hk⟩ := h.cellsFromRows a v hread
      exact ⟨k, List.mem_append_left _ hk⟩
  case rowsInCells =>
    intro k r hmem
    rw [htrace, List.mem_append] at hmem
    rw [hcfg, hframe]
    rcases hmem with hold | hnew
    · obtain ⟨hr, hcells⟩ := h.rowsInCells k r hold
      exact ⟨hr, fun c hc => read_of_storeRow (hcells c hc)⟩
    · obtain ⟨-, rfl⟩ : k = s.pos ∧ r = s.seq.toNat := by simpa using hnew
      exact ⟨hr, fun c hc => read_row_of_storeRow hl hc⟩

/-- NEXT counts the row just written (R118). -/
theorem next (h : TraceInv s) (hs : s.state = Code.next) :
    TraceInv { s with iter := s.iter + 1, state := Code.opoll } where
  transfersCounted := h.transfersCounted
  writesCounted := by
    have hw := h.writesCounted
    rw [if_pos hs] at hw
    rw [if_neg (show Code.opoll ≠ Code.next by decide)]
    exact hw
  nothingBeforeStart h1 := absurd h1 (show ¬ Code.opoll.toNat ≤ 1 by decide)
  cellsFromRows := h.cellsFromRows
  rowsInCells := h.rowsInCells

/-- Nothing recorded, nothing stored. -/
theorem of_empty (htrace : s.trace = []) (hframe : s.frame = []) (hpos : s.pos = 0) (hiter : s.iter = 0)
    (hs : s.state ≠ Code.next) : TraceInv s := by
  constructor <;> simp [htrace, hframe, hpos, hiter, hs, transfers, rowWrites]

/-- Every move keeps the bookkeeping. -/
theorem move (h : TraceInv s) (m : Move s t) : TraceInv t := by
  cases m with
  | rest _ => exact h
  | complete hs _ => exact h.of_goto Code.opoll Code.done hs rfl (by decide) rfl rfl rfl rfl rfl
  | cancelled hs _ =>
    rcases hs with ⟨hs, -⟩ | hs
    · exact h.of_goto Code.opoll Code.cancelled hs rfl (by decide) rfl rfl rfl rfl rfl
    · exact h.of_goto Code.ipoll Code.cancelled hs rfl (by decide) rfl rfl rfl rfl rfl
  | turn hs _ _ => exact h.of_goto Code.opoll Code.ipoll hs rfl (by decide) rfl rfl rfl rfl rfl
  | request hs _ => exact h.of_goto Code.ipoll Code.xfer hs rfl (by decide) rfl rfl rfl rfl rfl
  | receive hs _ _ =>
    exact (h.log (.xfer (s.pos + 1) true) rfl _ rfl).of_goto Code.xfer Code.classify hs rfl (by decide) rfl rfl rfl rfl rfl
  | transportFault hs _ =>
    exact (h.log (.xfer (s.pos + 1) false) rfl _ rfl).of_goto Code.xfer Code.fault hs rfl (by decide) rfl rfl rfl rfl rfl
  | classify hs =>
    cases s.isDiscard with
    | true =>
      exact (h.log (.discard s.pos) rfl _ rfl).of_goto Code.classify Code.ipoll hs rfl (by decide) rfl rfl rfl rfl rfl
    | false => exact h.of_goto Code.classify Code.seqx hs rfl (by decide) rfl rfl rfl rfl rfl
  | seqx hs => exact h.of_goto Code.seqx Code.crcx hs rfl (by decide) rfl rfl rfl rfl rfl
  | crcx hs => exact h.of_goto Code.crcx Code.canon hs rfl (by decide) rfl rfl rfl rfl rfl
  | canon hs => exact h.of_goto Code.canon Code.crcrun hs rfl (by decide) rfl rfl rfl rfl rfl
  | crcrun hs => exact h.of_goto Code.crcrun Code.compare hs rfl (by decide) rfl rfl rfl rfl rfl
  | crcMatches hs _ => exact h.of_goto Code.compare Code.seqchk hs rfl (by decide) rfl rfl rfl rfl rfl
  | checksumFault hs _ => exact h.of_goto Code.compare Code.fault hs rfl (by decide) rfl rfl rfl rfl rfl
  | seqInRange hs _ => exact h.of_goto Code.seqchk Code.store hs rfl (by decide) rfl rfl rfl rfl rfl
  | seqRangeFault hs _ => exact h.of_goto Code.seqchk Code.fault hs rfl (by decide) rfl rfl rfl rfl rfl
  | store hs hr => exact h.store hs hr rfl rfl rfl rfl rfl rfl
  | next hs => exact h.next hs

/-- Every input keeps the bookkeeping. -/
theorem input (h : TraceInv s) {w : InstrWord} (i : Input w s t) : TraceInv t := by
  cases i with
  | ignored _ _ => exact h
  | select _ hs =>
    have hi : s.iter = 0 := h.nothingBeforeStart (hs ▸ by decide)
    exact h.of_untouched rfl rfl rfl rfl rfl (iff_of_false (show Code.selected ≠ Code.next by decide) (hs ▸ by decide))
      fun _ => hi
  | start _ hs =>
    have hi : s.iter = 0 := h.nothingBeforeStart (hs ▸ by decide)
    exact h.of_goto Code.selected Code.opoll hs rfl (by decide) rfl rfl rfl rfl hi.symm
  | cancel _ => exact h.of_untouched rfl rfl rfl rfl rfl Iff.rfl h.nothingBeforeStart
  | reset _ => exact of_empty rfl rfl rfl rfl (show Code.idle ≠ Code.next by decide)
  | read _ _ _ _ => exact h.of_untouched rfl rfl rfl rfl rfl Iff.rfl h.nothingBeforeStart
  | engine _ _ _ _ _ => exact h.of_untouched rfl rfl rfl rfl rfl Iff.rfl h.nothingBeforeStart

end TraceInv

/-- Settles O51: the moves of the sequencer and the inputs each keep the invariant, and a packet taken whole is a run of
moves. -/
theorem stepKeepsTraceInvariant : Obligations.StepKeepsTraceInvariant := fun _ _ h =>
  step_keeps (fun _ _ h => h.of_untouched rfl rfl rfl rfl rfl Iff.rfl h.nothingBeforeStart) (fun _ _ _ h => h.move)
    (fun _ _ _ _ h => h.input) h

end Sys2Proof.Machine
end

section
/-! PROOFS. Who writes `RUN` and the frame; what reset leaves; the status outputs; operations on a packet without values. -/

namespace Sys2Proof.Machine

/-! ### Who writes `RUN` and the frame -/

/-- No move of the sequencer writes `RUN` (R20). -/
theorem Move.run_eq {s t : State} (m : Move s t) : t.run = s.run := by
  cases m <;> simp

theorem moves_run_eq {s t : State} (run : Relation.ReflTransGen Move s t) : t.run = s.run := by
  induction run with
  | refl => rfl
  | tail _ m ih => exact m.run_eq.trans ih

/-- An input that writes `RUN` is a cancellation request or a reset. -/
theorem Input.run_cases {w : InstrWord} {s t : State} (i : Input w s t) :
    t.run = s.run ∨ w = .cancel 1#1 ∧ t.run = false ∨ w = .rst 1#1 ∧ t.run = true := by
  cases i with
  | cancel _ => exact .inr (.inl ⟨rfl, rfl⟩)
  | reset _ => exact .inr (.inr ⟨rfl, rfl⟩)
  | _ => exact .inl rfl

/-- Settles O56: no move of the sequencer writes `RUN`, and of the inputs only the two do. -/
theorem onlyCancelAndResetWriteRun : Obligations.OnlyCancelAndResetWriteRun := by
  intro s t h
  have cases : t.run = s.run ∨ s.fetch = .cancel 1#1 ∧ t.run = false ∨ s.fetch = .rst 1#1 ∧ t.run = true := by
    obtain ⟨-, ⟨-, m⟩ | ⟨-, run⟩ | i⟩ := step_moves h
    · exact .inl m.run_eq
    · have he := moves_run_eq run
      exact .inl he
    · exact i.run_cases
  rcases cases with he | ⟨hf, ht⟩ | ⟨hf, ht⟩
  · exact ⟨fun hs ht => by simp [he, hs] at ht, fun hs ht => by simp [he, hs] at ht⟩
  · exact ⟨fun _ _ => hf, fun _ ht' => by simp [ht] at ht'⟩
  · exact ⟨fun _ ht' => by simp [ht] at ht', fun _ _ => hf⟩

/-- Of the moves only STORE writes the frame (R41). -/
theorem Move.frame_eq {s t : State} (m : Move s t) (hs : s.state ≠ Code.store) : t.frame = s.frame := by
  cases m with
  | store h _ => exact absurd h hs
  | _ => simp

/-- Of the inputs only a reset writes the frame (R33). -/
theorem Input.frame_eq {w : InstrWord} {s t : State} (i : Input w s t) (hw : w ≠ .rst 1#1) : t.frame = s.frame := by
  cases i with
  | reset _ => exact absurd rfl hw
  | _ => rfl

/-- Settles O57: a step that takes no packet whole is one move or one input. -/
theorem onlyStoreWritesTheFrame : Obligations.OnlyStoreWritesTheFrame := by
  intro s t h hreset hstore hpacket
  obtain ⟨-, ⟨hf, m⟩ | ⟨⟨p, hf⟩, -⟩ | i⟩ := step_moves h
  · exact m.frame_eq fun hs => hstore (hf.trans (congrArg InstrWord.seq hs))
  · exact absurd hf (hpacket p)
  · exact i.frame_eq hreset

/-! ### Packets without values -/

/-- STORE of a row index completes, whatever `PKT` holds (R107). -/
theorem execStore_of_inRange {s : State} (h : s.seq.toNat < s.cfg.rows) :
    execStore s = .next { s with
      frame := s.frame.writeFrom (cellAddress s.cfg s.seq.toNat 0) s.samples
      trace := s.trace ++ [TraceEvent.rowWrite s.pos s.seq.toNat]
      state := Code.next
      draws := s.draws + 1 } :=
  if_pos (s.seqOk_iff.2 h)

/-- CLASSIFY leaves control in IPOLL or in SEQX (R89). -/
theorem State.classifyAs_state (s : State) (d : Bool) :
    (s.classifyAs d).state = if d then Code.ipoll else Code.seqx := by
  cases d <;> rfl

/-- Settles O28: no operation but STORE and SAMPLE.DECODE can stop, and these only at an address outside. -/
theorem undefinedPacketBytesDoNotStop : Obligations.UndefinedPacketBytesDoNotStop := by
  intro s
  refine ⟨⟨_, rfl, ?classify⟩, ⟨_, _, rfl⟩, ⟨_, _, rfl⟩, ⟨_, _, rfl⟩, ⟨_, _, rfl⟩, ?store, ?sample⟩
  case classify =>
    rw [State.classifyAs_state]
    split
    · exact .inl rfl
    · exact .inr rfl
  case store => exact fun hr => ⟨_, _, _, execStore_of_inRange hr⟩
  case sample => exact fun c hc => ⟨_, _, if_pos hc⟩

/-! ### Reset -/

/-- Settles O46: the operation answers the reset state, each of whose items is said by its own lemma. -/
theorem resetResult : Obligations.ResetResult := by
  refine ⟨fun s => ⟨s.afterReset, rfl, ?_⟩, ?_⟩
  · simp
  · simp [State.reset]

/-- Settles O53: the state after power-on meets the four invariants: nothing is stored, recorded or in progress. -/
theorem resetMeetsTheInvariants : Obligations.ResetMeetsTheInvariants :=
  ⟨.of_waiting Code.idle rfl (by decide) (by decide) rfl rfl (by decide),
    .of_memories Code.idle rfl (by decide) ⟨rfl, rfl, rfl, rfl, rfl, rfl⟩,
    .of_empty rfl rfl rfl rfl (by decide),
    ⟨rfl, by decide, by decide, by decide, by decide⟩⟩

/-! ### The status outputs -/

theorem State.busy_iff (s : State) : s.busy = true ↔ 2 ≤ s.state.toNat ∧ s.state.toNat ≤ 13 := by
  rw [State.busy, Bool.and_eq_true, Nat.ble_eq, Nat.ble_eq]

theorem State.phase_of_not_busy {s : State} (h : s.busy = false) : s.phase = none :=
  if_neg (by simp [h])

theorem State.phase_of_busy {s : State} (h : s.busy = true) :
    s.phase = some (if s.iter = 0 then .syncing else .accumulating) :=
  if_pos h

/-- Settles O48: each output by its own lemma, and `PHASE` by whether `ITER` is 0. -/
theorem statusOutputs : Obligations.StatusOutputs := by
  intro s
  refine ⟨beq_iff_eq, s.busy_iff, State.phase_of_not_busy, fun hb hi => ?_, fun hb hi => ?_⟩
  · rw [State.phase_of_busy hb, if_pos hi]
  · rw [State.phase_of_busy hb, if_neg (by omega)]

end Sys2Proof.Machine
end

section
/-! PROOFS. The model's stops at addresses outside `PKT` and `FRAME` and at packets of another length than `PKT_LEN`. -/

namespace Sys2Proof.Machine

/-! ### Addresses -/

/-- A row starts at `r * COLS` (R40). -/
theorem cellAddress_zero (c : Config) (r : Nat) : cellAddress c r 0 = r * c.cols := Nat.add_zero _

/-- A column outside the payload names bytes outside `PKT` (R36). -/
theorem execSampleDecode_of_outside {s : State} {c : Nat} (h : s.cfg.cols ≤ c) :
    execSampleDecode c s = .fault (.packetAddress (Config.payloadOff + 2 * c)) :=
  if_neg (Nat.not_lt.2 h)

/-- A sequence number that is no row index names cells outside `FRAME` (R41, R110). -/
theorem execStore_of_outside {s : State} (h : s.cfg.rows ≤ s.seq.toNat) :
    execStore s = .fault (.frameAddress (s.seq.toNat * s.cfg.cols)) := by
  rw [← cellAddress_zero]
  exact if_neg (mt s.seqOk_iff.1 (Nat.not_lt.2 h))

/-! ### Lengths -/

/-- XFER at an `Ok` answer receives it if it has `PKT_LEN` bytes (R87) and refuses it otherwise (D26). -/
theorem execXfer_of_ok {s : State} {b : List Byte} {rest : List Answer} (h : s.answers = .ok b :: rest) :
    execXfer s = if b.length = s.cfg.pktLen then .next ({ s with bus := rest }.receive b)
      else .refused (.answerLength b.length) := by
  rw [execXfer, h]

theorem execDiscard_of_length {s : State} {p : List Byte} (hs : s.state = Code.xfer) (hl : p.length ≠ s.cfg.pktLen) :
    execDiscard p s = .refused (.answerLength p.length) :=
  (if_pos hs).trans (if_neg hl)

theorem execData_of_length {s : State} {p : List Byte} (hs : s.state = Code.xfer) (hl : p.length ≠ s.cfg.pktLen) :
    execData p s = .refused (.answerLength p.length) :=
  (if_pos hs).trans (if_neg hl)

/-- Settles O27: the two operations that form addresses stop outside their memory, and the three that take a packet refuse
a wrong length. -/
theorem stopsOutsideTheAddressSpaces : Obligations.StopsOutsideTheAddressSpaces := by
  intro s
  refine ⟨?sample, ?store, ?answer, ?packet⟩
  case sample => exact fun _ hc => execSampleDecode_of_outside hc
  case store => exact execStore_of_outside
  case answer => exact fun _ _ ha hl => (execXfer_of_ok ha).trans (if_neg hl)
  case packet => exact fun _ hs hl => ⟨execDiscard_of_length hs hl, execData_of_length hs hl⟩

end Sys2Proof.Machine
end

section
/-! PROOFS. The decoder and the encoder: the class of a packet, and each encoded operation against its word. -/

namespace Sys2Proof.Machine

/-! ### The class of a packet -/

theorem carriesMarker_iff (c : Config) (h : Half) : carriesMarker c h = true ↔ h &&& c.discardMask = c.discardMask :=
  beq_iff_eq

/-- A packet of `PKT_LEN` bytes is decoded by the marker test over its header word (R61). -/
theorem decode_packet_of_length {c : Config} {p : List Byte} (hl : p.length = c.pktLen) :
    decode c (.packet p) = .ok (if carriesMarker c (headerOfBytes p) then .discard p else .data p) :=
  if_pos hl

theorem decode_of_discardPacket {c : Config} {p : List Byte} (hp : DiscardPacket c p) :
    decode c (.packet p) = .ok (.discard p) := by
  rw [decode_packet_of_length hp.1, if_pos hp.2]

theorem decode_of_dataPacket {c : Config} {p : List Byte} (hp : DataPacket c p) :
    decode c (.packet p) = .ok (.data p) := by
  rw [decode_packet_of_length hp.1, hp.2]
  rfl

theorem Instr.wf_discard_iff {c : Config} {p : List Byte} : (Instr.discard p).wf c = true ↔ DiscardPacket c p := by
  simp [Instr.wf, DiscardPacket]

theorem Instr.wf_data_iff {c : Config} {p : List Byte} : (Instr.data p).wf c = true ↔ DataPacket c p := by
  simp [Instr.wf, DataPacket]

/-! ### Operations and their words -/

/-- The word of an encoded operation with legal operands decodes to that operation. Only a packet word is read in the light of
the configuration; every other word fixes its operation by itself. -/
theorem decode_encode {c : Config} {i : Instr} {w : InstrWord} (hi : i.wf c = true ∨ ∃ a, i = .frameRead a)
    (he : encode i = some w) : decode c w = .ok i := by
  cases i <;> cases he
  case discard p => exact decode_of_discardPacket (Instr.wf_discard_iff.1 (hi.resolve_right nofun))
  case data p => exact decode_of_dataPacket (Instr.wf_data_iff.1 (hi.resolve_right nofun))
  all_goals rfl

/-- The operations without a word are the six composites (`30_encoding.md` section 6). -/
theorem composite_of_encode_eq_none {i : Instr} (h : encode i = none) :
    (∃ v bs, i = .crcBuf v bs) ∨ i = .sync ∨ i = .process ∨ (∃ k, i = .sampleDecode k) ∨ (∃ k, i = .rowAddr k) ∨
      i = .capture := by
  cases i <;> cases h
  all_goals simp

/-- Whatever a word decodes to is an operation that has a word. -/
theorem encode_ne_none_of_decode {c : Config} {w : InstrWord} {i : Instr} (h : decode c w = .ok i) :
    encode i ≠ none := by
  cases w with
  | seq code =>
    rw [encode_of_decodeState h]
    exact nofun
  | packet p =>
    simp only [decode, decodePacket] at h
    split at h <;> cases h
    split <;> exact nofun
  | cmd k =>
    cases h
    unfold decodeCmd
    split <;> exact nofun
  | cancel line =>
    simp only [decode] at h
    split at h <;> cases h
    exact nofun
  | rst line =>
    simp only [decode] at h
    split at h <;> cases h
    exact nofun
  | frameAddr a =>
    cases h
    exact nofun
  | engine e b v =>
    cases h
    unfold decodeEngine
    split <;> exact nofun

/-- Settles O1: an operation has a word, which decodes to it, or it is a composite. -/
theorem decodeEncodeRoundTrip : Obligations.DecodeEncodeRoundTrip := by
  intro c i hi
  cases he : encode i with
  | some w => exact .inl ⟨w, rfl, decode_encode hi he⟩
  | none => exact .inr ⟨rfl, composite_of_encode_eq_none he⟩

/-- Settles O2: the packets by their classes, every other word as the word of its operation. -/
theorem decodesWordsOfTheSpec : Obligations.DecodesWordsOfTheSpec := by
  refine ⟨?packetA, ?packetC, ?packetD, ?packetD', ?first, ?second, ?codes⟩
  case packetA | packetC | second => exact decode_of_dataPacket ⟨rfl, by decide⟩
  case packetD | packetD' | first => exact decode_of_discardPacket ⟨rfl, by decide⟩
  case codes =>
    refine ⟨?_, ?_, ?_, ?refused, ?_, ?_, ?_, ?_, ?_, ?_, ?read⟩
    case refused => rfl
    case read => exact decode_encode (.inr ⟨_, rfl⟩) rfl
    all_goals exact decode_encode (.inl rfl) rfl

/-- Settles O3: the marker test of the decoder is the equation of R56 over the header word. -/
theorem everyPacketHasOneClass : Obligations.EveryPacketHasOneClass := by
  intro c p hl
  simp only [decode_packet_of_length hl, carriesMarker_iff]
  rfl

/-- Settles O7: each code of `eop` by the decoder's table, and CRC.BUF has no code because it has no word. -/
theorem engineCodesAndHold : Obligations.EngineCodesAndHold := by
  refine ⟨fun _ _ _ => ⟨rfl, rfl, rfl, rfl⟩, ?buffer, fun _ => ⟨rfl, rfl⟩⟩
  case buffer => exact fun _ _ _ _ h => encode_ne_none_of_decode h rfl

end Sys2Proof.Machine
end

section
/-! PROOFS. Packets taken whole: reception, PROCESS on a packet that stands in `PKT`, and the packet of a quiet bus. -/

namespace Sys2Proof.Machine

/-! ### A packet that stands in `PKT` -/

/-- `PKT` holds exactly the bytes of `p` (R36, R87). -/
def State.Holds (s : State) (p : List Byte) : Prop := ∀ i, s.pkt.read i = p[i]?

theorem State.receive_holds (s : State) (p : List Byte) : (s.receive p).Holds p := Memory.read_ofList_zero p

/-- Every byte but the first four is the packet's own (R97). -/
theorem canonicalBytes_getElem? (c : Config) (p : List Byte) {i : Nat} (hi : 4 ≤ i) : (canonicalBytes c p)[i]? = p[i]? := by
  obtain ⟨j, rfl⟩ := Nat.exists_eq_add_of_le hi
  simp [canonicalBytes, Nat.add_comm 4 j, List.getElem?_cons_succ]

theorem canonicalBytes_length (c : Config) {p : List Byte} (hl : 4 ≤ p.length) : (canonicalBytes c p).length = p.length := by
  simp only [canonicalBytes, List.length_cons, List.length_drop]
  omega

/-- Canonicalization keeps the samples (R97, R105). -/
theorem packetSample_canonicalBytes (c : Config) (p : List Byte) : packetSample (canonicalBytes c p) = packetSample p := by
  funext k
  simp only [packetSample, List.getD_eq_getElem?_getD]
  rw [canonicalBytes_getElem? c p (by omega), canonicalBytes_getElem? c p (by omega)]

namespace State.Holds

variable {s : State} {p : List Byte}

theorem pktByte (h : s.Holds p) {i : Nat} (hi : i < p.length) : s.pktByte i = p.getD i 0#8 :=
  State.pktByte_of_read (by rw [h i, List.getD_eq_getElem?_getD, List.getElem?_eq_getElem hi]; rfl)

theorem header (h : s.Holds p) (hl : 4 ≤ p.length) : s.header = headerOfBytes p := by
  rw [State.header, h.pktByte (by omega), h.pktByte (by omega)]
  rfl

theorem transmittedChecksum (h : s.Holds p) (hl : 4 ≤ p.length) : s.transmittedChecksum = packetChecksum s.cfg p := by
  rw [State.transmittedChecksum, h.pktByte (by omega), h.pktByte (by omega)]
  rfl

/-- The samples in `PKT` are the packet's, column by column (R105). -/
theorem samples (h : s.Holds p) (hl : p.length = 4 + 2 * s.cfg.cols) :
    s.samples = (List.range s.cfg.cols).map (packetSample p) := by
  refine List.map_congr_left fun k hk => ?_
  have hk : k < s.cfg.cols := List.mem_range.1 hk
  have he : Config.payloadOff + 1 + 2 * k = 5 + 2 * k := rfl
  rw [State.sample, he, h.pktByte (by omega), h.pktByte (by omega)]
  rfl

/-- CANON leaves the packet's canonicalized form in `PKT` (R97, R101). -/
theorem canonicalPkt {t : State} (h : s.Holds p) (hl : 4 ≤ p.length) (ht : t.pkt = s.canonicalPkt) :
    t.Holds (canonicalBytes s.cfg p) := by
  intro i
  rw [ht, State.canonicalPkt_read, h.header hl]
  match i with
  | 0 | 1 | 2 | 3 => rfl
  | j + 4 => rw [canonicalBytes_getElem? s.cfg p (by omega), ← h (j + 4)]; rfl

end State.Holds

/-! ### PROCESS on a packet that stands in `PKT` -/

/-- The state after SEQX and CRCX (R95, R96). -/
def State.extracted (s : State) : State :=
  let s1 := { s with seq := seqOfHeader s.cfg s.header, state := Code.crcx, draws := s.draws + 1 }
  { s1 with rxcrc := s1.transmittedChecksum, state := Code.canon, draws := s1.draws + 1 }

/-- The state after CANON as well (R97). -/
def State.canonicalized (s : State) : State :=
  { s.extracted with pkt := s.extracted.canonicalPkt, state := Code.crcrun, draws := s.extracted.draws + 1 }

/-- CRCRUN is the last of the four micro-operations that prepare the comparison (R98). -/
theorem State.prepared_eq (s : State) :
    s.prepared = { s.canonicalized with
      crc := checksum s.table 0#16 (s.canonicalized.pktBytes 0 s.cfg.pktLen)
      state := Code.compare
      draws := s.canonicalized.draws + 1 } := rfl

namespace State.Holds

variable {s : State} {p : List Byte}

theorem extracted (h : s.Holds p) : s.extracted.Holds p := h

theorem extracted_rxcrc (h : s.Holds p) (hl : 4 ≤ p.length) : s.extracted.rxcrc = packetChecksum s.cfg p :=
  transmittedChecksum (s := { s with seq := seqOfHeader s.cfg s.header, state := Code.crcx, draws := s.draws + 1 }) h hl

theorem canonicalized (h : s.Holds p) (hl : 4 ≤ p.length) : s.canonicalized.Holds (canonicalBytes s.cfg p) :=
  h.extracted.canonicalPkt hl rfl

/-- `PKT` keeps its canonicalized form (R101). -/
theorem prepared (h : s.Holds p) (hl : 4 ≤ p.length) : s.prepared.Holds (canonicalBytes s.cfg p) := h.canonicalized hl

theorem prepared_seq (h : s.Holds p) (hl : 4 ≤ p.length) : s.prepared.seq = packetSeq s.cfg p :=
  congrArg (seqOfHeader s.cfg) (h.header hl)

theorem prepared_rxcrc (h : s.Holds p) (hl : 4 ≤ p.length) : s.prepared.rxcrc = packetChecksum s.cfg p :=
  h.extracted_rxcrc hl

/-- CRCRUN recomputes the checksum over the canonicalized packet (R98). -/
theorem prepared_crc (h : s.Holds p) (hl : 4 ≤ p.length) (hn : p.length = s.cfg.pktLen) (ht : s.table = crcTable) :
    s.prepared.crc = recomputedChecksum s.cfg p := by
  have hbytes : s.canonicalized.pktBytes 0 s.cfg.pktLen = canonicalBytes s.cfg p :=
    State.pktBytes_of_reads ((canonicalBytes_length s.cfg hl).trans hn) fun i _ => h.canonicalized hl i
  rw [State.prepared_eq, recomputedChecksum, ht, hbytes]

/-- STORE takes the samples of the packet as it was received: canonicalization does not touch them (R107). -/
theorem stored_samples (h : s.Holds p) (hn : p.length = 4 + 2 * s.cfg.cols) :
    ({ s.prepared with state := Code.store } : State).samples = (List.range s.cfg.cols).map (packetSample p) := by
  have hc := h.prepared (by omega)
  have hs := samples (s := { s.prepared with state := Code.store }) hc ((canonicalBytes_length s.cfg (by omega)).trans hn)
  rw [hs, packetSample_canonicalBytes]
  rfl

end State.Holds

/-- PROCESS on a packet whose checksum matches and whose sequence number is a row index: the row is stored and counted
(R94, R107, R118). -/
theorem execProcess_of_accepted {s : State} {p : List Byte} (hw : s.cfg.wf = true) (ht : s.table = crcTable)
    (h : s.Holds p) (hp : AcceptedPacket s.cfg p) :
    execProcess s = .next { s with
      seq := packetSeq s.cfg p, rxcrc := packetChecksum s.cfg p, crc := recomputedChecksum s.cfg p
      pkt := s.prepared.pkt
      frame := s.frame.writeFrom (cellAddress s.cfg (packetSeq s.cfg p).toNat 0)
        ((List.range s.cfg.cols).map (packetSample p))
      trace := s.trace ++ [TraceEvent.rowWrite s.pos (packetSeq s.cfg p).toNat]
      iter := s.iter + 1, state := Code.opoll, draws := s.prepared.draws + 1 } := by
  obtain ⟨⟨hn, -⟩, hmatch, hrow⟩ := hp
  have hlen := ((Config.wf_iff _).1 hw).1
  have hl : 4 ≤ p.length := by omega
  rw [← h.prepared_rxcrc hl, ← h.prepared_crc hl hn ht] at hmatch
  rw [← h.prepared_seq hl] at hrow
  rw [execProcess_eq, if_pos hmatch, if_pos hrow, h.stored_samples (by omega), ← h.prepared_seq hl, ← h.prepared_rxcrc hl,
    ← h.prepared_crc hl hn ht]
  rfl

/-! ### The row stored -/

section StoredRow

variable {m : Memory 16} {c : Config} {r : Nat} {f : Nat → Half}

theorem read_storedRow {k : Nat} (hk : k < c.cols) :
    (m.writeFrom (cellAddress c r 0) ((List.range c.cols).map f)).read (r * c.cols + k) = some (f k) := by
  rw [cellAddress_zero, Memory.read_writeFrom, dif_pos (by simp; omega)]
  simp

/-- STORE writes no cell of another row (R107). -/
theorem read_outside_storedRow {a : Nat} (ha : ¬ (r * c.cols ≤ a ∧ a < r * c.cols + c.cols)) :
    (m.writeFrom (cellAddress c r 0) ((List.range c.cols).map f)).read a = m.read a := by
  rw [cellAddress_zero, Memory.read_writeFrom, dif_neg (by simpa using ha)]

end StoredRow

/-! ### The two classes -/

/-- Taken whole, a packet of `PKT_LEN` bytes that answers the transfer in flight is dropped as a discard packet (R62). -/
theorem execDiscard_of_inFlight {s : State} {p : List Byte} (hs : s.state = Code.xfer) (hl : p.length = s.cfg.pktLen) :
    execDiscard p s = .next ((s.receive p).classifyAs true) :=
  (if_pos hs).trans (if_pos hl)

/-- Taken whole, a packet of `PKT_LEN` bytes that answers the transfer in flight is processed as a DATA packet (R63). -/
theorem execData_of_inFlight {s : State} {p : List Byte} (hs : s.state = Code.xfer) (hl : p.length = s.cfg.pktLen) :
    execData p s = execProcess ((s.receive p).classifyAs false) :=
  (if_pos hs).trans (if_pos hl)

/-- A packet received and dropped: both events are recorded for the same transfer (R62, R90). -/
theorem State.receive_classifyAs_discard (s : State) (p : List Byte) :
    (s.receive p).classifyAs true = { s with
      pkt := Memory.ofList 0 p, pos := s.pos + 1
      trace := s.trace ++ [TraceEvent.xfer (s.pos + 1) true, TraceEvent.discard (s.pos + 1)]
      state := Code.ipoll, draws := s.draws + 1 } :=
  congrArg (fun trace => { s with
    pkt := Memory.ofList 0 p, pos := s.pos + 1, trace := trace, state := Code.ipoll, draws := s.draws + 1 })
    (List.append_assoc _ _ _)

/-- Settles O32: reception followed by the classification as a discard packet. -/
theorem discardPacketResult : Obligations.DiscardPacketResult := by
  intro s p ⟨hl, _⟩
  exact ⟨fun hs => ⟨_, execDiscard_of_inFlight hs hl, s.receive_holds p, s.receive_classifyAs_discard p⟩,
    fun hs => if_neg hs⟩

/-- Settles O33: reception followed by the classification as a DATA packet leaves control in SEQX, and PROCESS always
completes. -/
theorem dataPacketIsReceptionThenProcess : Obligations.DataPacketIsReceptionThenProcess := by
  intro s p ⟨hl, _⟩
  refine ⟨fun hs => ?inFlight, fun hs => if_neg hs⟩
  case inFlight =>
    have he := execData_of_inFlight hs hl
    obtain ⟨t, ht⟩ := execProcess_next ((s.receive p).classifyAs false)
    exact ⟨Memory.ofList 0 p, s.draws + 1, t, s.receive_holds p, he, he.trans ht⟩

/-- Settles O34: PROCESS on the received packet, whose row, canonicalized form and registers each have their own lemma. -/
theorem acceptedPacketIsStored : Obligations.AcceptedPacketIsStored := by
  intro s p hw ht hs hp
  have hl : 4 ≤ p.length := by
    have := ((Config.wf_iff _).1 hw).1
    have := hp.1.1
    omega
  have received : ((s.receive p).classifyAs false).Holds p := s.receive_holds p
  refine ⟨_, (execData_of_inFlight hs hp.1.1).trans (execProcess_of_accepted hw ht received hp), rfl, rfl, hp.2.1.symm,
    received.prepared hl, fun _ => read_storedRow, fun _ => read_outside_storedRow, ?frame⟩
  case frame => simp

/-! ### The packet of a quiet bus -/

theorem crcUpdate_zero : crcUpdate crcTable 0#16 0#8 = 0#16 := by decide +kernel

/-- A buffer of zeros leaves a zero accumulator at zero (R81). -/
theorem checksum_zeros (n : Nat) : checksum crcTable 0#16 (List.replicate n 0#8) = 0#16 := by
  induction n with
  | zero => rfl
  | succ n ih => rw [List.replicate_succ, checksum_cons, crcUpdate_zero, ih]

theorem headerOfBytes_zeros (n : Nat) : headerOfBytes (List.replicate n 0#8) = 0#16 := by
  simp [headerOfBytes, joinBytes]

theorem packetChecksum_zeros (c : Config) (n : Nat) : packetChecksum c (List.replicate n 0#8) = 0#16 := by
  simp [packetChecksum, checksumField, joinBytes]

theorem packetSeq_zeros (c : Config) (n : Nat) : packetSeq c (List.replicate n 0#8) = 0#12 := by
  simp [packetSeq, seqOfHeader, headerOfBytes_zeros]

/-- A packet of zeros is its own canonicalized form. -/
theorem canonicalBytes_zeros (c : Config) {n : Nat} (hn : 4 ≤ n) :
    canonicalBytes c (List.replicate n 0#8) = List.replicate n 0#8 := by
  obtain ⟨k, rfl⟩ := Nat.exists_eq_add_of_le' hn
  rw [canonicalBytes, headerOfBytes_zeros]
  simp [clearFlags, List.replicate_succ]

/-- A marker of at least one bit does not appear in a zero header (R67). -/
theorem carriesMarker_zero {c : Config} (hm : c.discardMask ≠ 0#16) : carriesMarker c 0#16 = false := by
  simpa [carriesMarker] using hm.symm

/-- Settles O36: the header of zeros carries no marker and names row 0, and both checksums are 0. -/
theorem quietBusPacketIsAccepted : Obligations.QuietBusPacketIsAccepted := by
  intro c hw hr hm
  have hlen := ((Config.wf_iff _).1 hw).1
  refine ⟨⟨⟨List.length_replicate, ?marker⟩, ?checksum, ?row⟩, packetSeq_zeros c _⟩
  case marker => rw [headerOfBytes_zeros, carriesMarker_zero hm]
  case checksum => rw [packetChecksum_zeros, recomputedChecksum, canonicalBytes_zeros c (by omega), checksum_zeros]
  case row => rwa [packetSeq_zeros]

end Sys2Proof.Machine
end

section
/-! PROOFS. The checksum engine: its operations, the table as eight steps of the register, and the laws of the checksum. -/

namespace Sys2Proof.Machine

/-! ### What each operation does -/

theorem exec_crcInit (v : Half) (s : State) : exec (.crcInit v) s = .next { s with crc := v } := rfl

theorem exec_crcByte (b : Byte) (s : State) :
    exec (.crcByte b) s = .next { s with crc := crcUpdate s.table s.crc b } := rfl

theorem exec_crcBuf (v : Half) (bs : List Byte) (s : State) :
    exec (.crcBuf v bs) s = .next { s with crc := checksum s.table v bs } := rfl

/-- One CRC.BYTE per byte leaves in `CRC` the checksum that starts at its value (R79). -/
theorem foldl_crcByte (bs : List Byte) (s : State) :
    bs.foldl (fun r b => andThen r (exec (.crcByte b))) (.next s) = .next { s with crc := checksum s.table s.crc bs } := by
  induction bs generalizing s with
  | nil => rfl
  | cons b bs ih => rw [List.foldl_cons, andThen_next, exec_crcByte, ih, checksum_cons]

/-! ### The table and the register -/

/-- The listing of R76 is what the procedure of R75 generates. -/
theorem tableEntry_crcTable (i : Byte) : tableEntry crcTable i = generatedEntry i := by
  revert i
  decide +kernel

theorem lfsrStep_of_even {c : Half} (h : c.getLsbD 0 = false) : lfsrStep c = c >>> 1 :=
  if_neg (Bool.eq_false_iff.1 h)

/-- While the low bits are 0 there is no feedback: the register only shifts. -/
theorem lfsrStep_iterate {n : Nat} {c : Half} (h : ∀ k < n, c.getLsbD k = false) : lfsrStep^[n] c = c >>> n := by
  induction n with
  | zero => rfl
  | succ n ih =>
    have even : (c >>> n).getLsbD 0 = false := by simpa using h n (by omega)
    rw [Function.iterate_succ_apply', ih fun k hk => h k (by omega), lfsrStep_of_even even, BitVec.shiftRight_add]

/-- Eight steps shift out a low byte of 0. -/
theorem lfsrEight_of_lowByte_zero {c : Half} (h : c.setWidth 8 = 0#8) : lfsrEight c = c >>> 8 := by
  refine lfsrStep_iterate (n := 8) fun k hk => ?_
  simpa [hk] using congrArg (·.getLsbD k) h

/-- The byte does not reach the bits that stay after the shift. -/
theorem xor_byte_shiftRight (c : Half) (b : Byte) : (c ^^^ b.setWidth 16) >>> 8 = c >>> 8 := by
  ext k hk; simp

/-- A word is its high byte in place XOR its low byte, and by linearity the register acts on the two apart. -/
theorem lfsrEight_eq (x : Half) : lfsrEight x = (x >>> 8) ^^^ generatedEntry (x.setWidth 8) := by
  have low : (x ^^^ (x.setWidth 8).setWidth 16).setWidth 8 = 0#8 := by ext k hk; simp
  calc lfsrEight x
      = lfsrEight (x ^^^ (x.setWidth 8).setWidth 16) ^^^ lfsrEight ((x.setWidth 8).setWidth 16) := by
        rw [← lfsrEight_xor, BitVec.xor_assoc, BitVec.xor_self, BitVec.xor_zero]
    _ = (x >>> 8) ^^^ generatedEntry (x.setWidth 8) := by
        rw [lfsrEight_of_lowByte_zero low, xor_byte_shiftRight, generatedEntry]

/-- CRC.BYTE over the table is its bit-serial form (R80). -/
theorem crcUpdate_crcTable (c : Half) (b : Byte) : crcUpdate crcTable c b = serialUpdate c b := by
  rw [serialUpdate, lfsrEight_eq, xor_byte_shiftRight, crcUpdate, tableEntry_crcTable, crcIndex]

/-! ### The laws of one byte -/

/-- One CRC.BYTE is linear over XOR (R81). -/
theorem crcUpdate_xor (i j : Half) (x y : Byte) :
    crcUpdate crcTable (i ^^^ j) (x ^^^ y) = crcUpdate crcTable i x ^^^ crcUpdate crcTable j y := by
  simp only [crcUpdate_crcTable, serialUpdate, ← lfsrEight_xor, BitVec.setWidth_xor]
  ac_rfl

theorem crcUpdate_injective_crc (b : Byte) : Function.Injective (crcUpdate crcTable · b) := by
  intro i j h
  simp only [crcUpdate_crcTable, serialUpdate] at h
  exact (BitVec.xor_left_inj _).1 (lfsrEight_inj h)

theorem crcUpdate_injective_byte (c : Half) : Function.Injective (crcUpdate crcTable c) := by
  intro x y h
  simp only [crcUpdate_crcTable, serialUpdate] at h
  have e : x.setWidth 16 = y.setWidth 16 := (BitVec.xor_right_inj _).1 (lfsrEight_inj h)
  simpa using congrArg (BitVec.setWidth 8) e

/-! ### The laws of a buffer -/

theorem checksum_append (table : Vector Half 256) (i : Half) (a b : List Byte) :
    checksum table i (a ++ b) = checksum table (checksum table i a) b := List.foldl_append

/-- The checksum is linear over XOR of buffers of one length (R81). -/
theorem checksum_xor (i j : Half) {a b : List Byte} (h : a.length = b.length) :
    checksum crcTable (i ^^^ j) (List.zipWith (· ^^^ ·) a b) = checksum crcTable i a ^^^ checksum crcTable j b := by
  induction a generalizing i j b with
  | nil =>
    obtain rfl := List.length_eq_zero_iff.1 h.symm
    rfl
  | cons x a ih =>
    obtain ⟨y, b, rfl⟩ := List.exists_cons_of_length_eq_add_one h.symm
    rw [List.zipWith_cons_cons, checksum_cons, crcUpdate_xor, ih _ _ (by simpa using h), checksum_cons, checksum_cons]

/-- Two accumulators that differ still differ after the same bytes. -/
theorem checksum_injective (bs : List Byte) : Function.Injective (checksum crcTable · bs) := by
  induction bs with
  | nil => exact Function.injective_id
  | cons b bs ih => exact ih.comp (crcUpdate_injective_crc b)

/-- A change of exactly one byte changes the checksum (R81). -/
theorem checksum_set_ne (i : Half) {a : List Byte} {k : Nat} {x : Byte} (hk : k < a.length) (hx : a.getD k 0#8 ≠ x) :
    checksum crcTable i (a.set k x) ≠ checksum crcTable i a := by
  induction a generalizing i k with
  | nil => simp at hk
  | cons b a ih =>
    cases k with
    | zero =>
      intro h
      exact hx (crcUpdate_injective_byte i (checksum_injective a h)).symm
    | succ k => exact ih (crcUpdate crcTable i b) (by simpa using hk) (by simpa using hx)

/-! ### The obligations -/

/-- Settles O8, by the fold of CRC.BYTE from the state that CRC.INIT leaves. -/
theorem crcBufIsInitThenBytes : Obligations.CrcBufIsInitThenBytes := by
  intro s v bs
  refine ⟨?fold, _, exec_crcBuf v bs s⟩
  case fold => rw [exec_crcInit, foldl_crcByte, exec_crcBuf]

/-- Settles O10: the register acts on the high and the low byte of the word apart, by linearity, and the table holds what it does
to the low one. -/
theorem crcByteIsBitSerial : Obligations.CrcByteIsBitSerial := by
  intro s b ht
  rw [exec_crcByte, ht, crcUpdate_crcTable, serialUpdate]

/-- Settles O11, from linearity and injectivity of one CRC.BYTE. -/
theorem checksumLaws : Obligations.ChecksumLaws :=
  ⟨checksum_append crcTable, checksum_nil crcTable, checksum_zeros, fun i j _ _ => checksum_xor i j,
    fun i _ _ _ => checksum_set_ne i⟩

/-- Settles O6: `crcUpdate` is the source's formula. -/
theorem engineOperationResults : Obligations.EngineOperationResults :=
  ⟨fun _ _ _ => ⟨rfl, rfl⟩, fun s b v => ⟨exec_crcInit v s, exec_crcByte b s⟩⟩

/-- Settles O9, entry by entry. -/
theorem tableIsTheGeneratedOne : Obligations.TableIsTheGeneratedOne := tableEntry_crcTable

end Sys2Proof.Machine
end

section
/-! PROOFS. Runs with quiet inputs: a move of the sequencer is one step, so a run of moves is a run of steps; and SYNC and
PROCESS are such runs. -/

namespace Sys2Proof.Machine

open Relation (ReflTransGen)

/-! ### Runs of the machine -/

/-- A run takes its first step and goes on from there. -/
theorem core_run_succ {s t : State} (h : step s = .next t) (k : Nat) :
    Host.Core.run Sys2Proof.core (k + 1) s = Host.Core.run Sys2Proof.core k t := by
  have hcore : Sys2Proof.core.step s = .next t := h
  simp only [Host.Core.run, hcore]

/-- A step that changes nothing can be taken any number of times. -/
theorem core_run_of_rest {s : State} (h : step s = .next s) (n : Nat) :
    Host.Core.run Sys2Proof.core n s = .next s := by
  induction n with
  | zero => rfl
  | succ k ih => rw [core_run_succ h, ih]

/-! ### Quiet states -/

/-- The block takes a step from `s` (R3, R68, U8), and no input is to come. -/
structure State.Quiet (s : State) : Prop where
  config : s.cfg.wf = true
  stateCode : s.state.toNat ≤ 16
  errCode : s.err.toNat ≤ 3
  ports : s.ports = []

/-- A quiet step performs the micro-operation that `STATE` names (R19). -/
theorem State.Quiet.step_eq {s : State} (q : s.Quiet) {i : Instr} {code : BitVec 5} (hs : s.state = code)
    (hd : decodeState code = .ok i) : step s = exec i s :=
  step_of_quiet q.config q.errCode q.ports hs hd

/-- A move leads to a `STATE` code that names a micro-operation (R68). -/
theorem Move.state_le {s t : State} (m : Move s t) (h : s.state.toNat ≤ 16) : t.state.toNat ≤ 16 := by
  cases m with
  | rest _ => exact h
  | classify _ =>
    rw [State.classifyAs_state]
    split <;> decide
  | _ => simp

/-- A move leaves `ERR` as it is or records one of the three faults (R22). -/
theorem Move.err_le {s t : State} (m : Move s t) (h : s.err.toNat ≤ 3) : t.err.toNat ≤ 3 := by
  cases m <;> simp [h]

theorem Move.ports_eq {s t : State} (m : Move s t) : t.ports = s.ports := by
  cases m <;> simp

/-- Every move leads from a quiet state to one. -/
theorem State.Quiet.move {s t : State} (q : s.Quiet) (m : Move s t) : t.Quiet where
  config := m.cfg_eq ▸ q.config
  stateCode := m.state_le q.stateCode
  errCode := m.err_le q.errCode
  ports := m.ports_eq.trans q.ports

/-! ### A move is one step -/

/-- The codes up to 1 and from 14 to 16 name the five micro-operations without an effect of their own (R113). -/
theorem decodeState_of_resting {code : BitVec 5} (h16 : code.toNat ≤ 16) (h : code.toNat ≤ 1 ∨ 14 ≤ code.toNat) :
    decodeState code = .ok .idle ∨ decodeState code = .ok .selected ∨ decodeState code = .ok .done ∨
      decodeState code = .ok .cancelled ∨ decodeState code = .ok .fault := by
  revert code
  decide

/-- XFER without an answer changes nothing (R87, R163). -/
theorem execXfer_of_unanswered {s : State} (h : s.answers = []) : execXfer s = .next s := by
  rw [execXfer, h]

/-- XFER at a failed transfer raises TransportError (R88). -/
theorem execXfer_of_err {s : State} {c : TransportCode} {rest : List Answer} (h : s.answers = .err c :: rest) :
    execXfer s = .next ({ s with bus := rest }.raiseTransport c) := by
  rw [execXfer, h]

theorem execIpoll_of_run {s : State} (h : s.run = true) : execIpoll s = .next s.requestTransfer := by
  simp [execIpoll, h]

theorem execIpoll_of_not_run {s : State} (h : s.run = false) : execIpoll s = .next s.enterCancelled := by
  simp [execIpoll, h]

/-- Where the block takes quiet steps, each move is one of them: the converse of `step_moves` for the sequencer. -/
theorem Move.step_eq {s t : State} (m : Move s t) (q : s.Quiet) : step s = .next t := by
  cases m
  case rest h =>
    rcases or_assoc.2 h with h | ⟨hs, ha⟩
    · rcases decodeState_of_resting q.stateCode h with hd | hd | hd | hd | hd <;> exact q.step_eq rfl hd
    · exact (q.step_eq hs rfl).trans (execXfer_of_unanswered ha)
  case complete hs hi => exact (q.step_eq hs rfl).trans (congrArg Host.Outcome.next (if_pos hi))
  case cancelled hs hr =>
    rcases hs with ⟨hs, hi⟩ | hs
    · exact (q.step_eq hs rfl).trans (congrArg Host.Outcome.next ((if_neg hi).trans (if_pos hr)))
    · exact (q.step_eq hs rfl).trans (execIpoll_of_not_run hr)
  case turn hs hi hr =>
    exact (q.step_eq hs rfl).trans (congrArg Host.Outcome.next ((if_neg hi).trans (if_neg (by simp [hr]))))
  case request hs hr => exact (q.step_eq hs rfl).trans (execIpoll_of_run hr)
  case receive hs ha hl => exact (q.step_eq hs rfl).trans ((execXfer_of_ok ha).trans (if_pos hl))
  case transportFault hs ha => exact (q.step_eq hs rfl).trans (execXfer_of_err ha)
  case crcMatches hs hm => exact (q.step_eq hs rfl).trans (congrArg Host.Outcome.next (if_pos (s.crcMatch_iff.2 hm)))
  case checksumFault hs hm => exact (q.step_eq hs rfl).trans (congrArg Host.Outcome.next (if_neg (mt s.crcMatch_iff.1 hm)))
  case seqInRange hs hr => exact (q.step_eq hs rfl).trans (congrArg Host.Outcome.next (if_pos (s.seqOk_iff.2 hr)))
  case seqRangeFault hs hr => exact (q.step_eq hs rfl).trans (congrArg Host.Outcome.next (if_neg (mt s.seqOk_iff.1 hr)))
  case store hs hr => exact (q.step_eq hs rfl).trans (execStore_of_inRange hr)
  case classify hs | seqx hs | crcx hs | canon hs | crcrun hs | next hs => exact q.step_eq hs rfl

/-- A quiet run takes a move as its first step. -/
theorem Move.run_succ {s t : State} (m : Move s t) (q : s.Quiet) (k : Nat) :
    Host.Core.run Sys2Proof.core (k + 1) s = Host.Core.run Sys2Proof.core k t :=
  core_run_succ (m.step_eq q) k

/-- A run of moves is a run of quiet steps. -/
theorem exists_run_of_moves {s t : State} (q : s.Quiet) (h : ReflTransGen Move s t) :
    ∃ n, Host.Core.run Sys2Proof.core n s = .next t := by
  induction h using ReflTransGen.head_induction_on with
  | refl => exact ⟨0, rfl⟩
  | head m _ ih =>
    obtain ⟨n, hn⟩ := ih (q.move m)
    exact ⟨n + 1, (m.run_succ q n).trans hn⟩

/-- Settles O17: a transfer without an answer is at rest. -/
theorem unansweredTransferHangs : Obligations.UnansweredTransferHangs := by
  intro s n hw he hs ha hp
  have q : s.Quiet := ⟨hw, by rw [hs]; decide, he, hp⟩
  exact core_run_of_rest (Move.step_eq (.rest (.inr (.inr ⟨hs, ha⟩))) q) n

/-! ### SYNC and PROCESS are runs of moves -/

/-- One turn of the retry loop from IPOLL is a run of moves, wherever it ends early (R85). -/
theorem moves_of_syncRound {s t : State} (hs : s.state = Code.ipoll) (h : syncRound s = .next t) :
    ReflTransGen Move s t := by
  obtain ⟨u, hpoll, h⟩ := andThen_eq_next.1 h
  have polled := ReflTransGen.single (move_of_execIpoll hs hpoll)
  obtain ⟨hu, h⟩ | ⟨-, rfl⟩ := whenAt_eq_next.1 h
  case inr => exact polled
  obtain ⟨v, hxfer, h⟩ := andThen_eq_next.1 h
  have transferred := polled.tail (move_of_execXfer hu hxfer)
  obtain ⟨hv, h⟩ | ⟨-, rfl⟩ := whenAt_eq_next.1 h
  case inr => exact transferred
  cases h
  exact transferred.tail (.classify hv)

theorem moves_of_syncLoop {n : Nat} {s t : State} (hs : s.state = Code.ipoll) (h : syncLoop n s = .next t) :
    ReflTransGen Move s t := by
  induction n generalizing s with
  | zero =>
    cases h
    exact .refl
  | succ k ih =>
    obtain ⟨u, hround, h⟩ := andThen_eq_next.1 h
    have turned := moves_of_syncRound hs hround
    obtain ⟨hu, h⟩ | ⟨-, rfl⟩ := whenAt_eq_next.1 h
    · exact turned.trans (ih hu h)
    · exact turned

/-- Settles O42: both composites are runs of moves where control stands at their first micro-operation. -/
theorem syncAndProcessAreRuns : Obligations.SyncAndProcessAreRuns := by
  intro s t hw he hp
  have quiet (code : BitVec 5) (hc : code.toNat ≤ 16) (hs : s.state = code) : s.Quiet := ⟨hw, hs ▸ hc, he, hp⟩
  exact ⟨fun hs h => exists_run_of_moves (quiet _ (by decide) hs) (moves_of_syncLoop hs h),
    fun hs h => exists_run_of_moves (quiet _ (by decide) hs) (moves_of_execProcess hs h)⟩

end Sys2Proof.Machine
end

section
/-! PROOFS. The packet synchronizer: its micro-operations, the turns of the retry loop that drop a packet, and the ways the
loop ends. -/

namespace Sys2Proof.Machine

/-! ### The micro-operations -/

/-- Settles O12: both branches are the model's shared operations written out. -/
theorem ipollResult : Obligations.IpollResult := by
  refine ⟨fun _ => rfl, fun s => ?_⟩
  split
  case isTrue hr => exact execIpoll_of_not_run hr
  case isFalse hr => exact execIpoll_of_run (by simpa using hr)

/-- Bit `i` of `EXPECTED` is bit `28 + i` of `ERRINFO` (R71). -/
theorem errExpected_getLsbD (e : BitVec 44) {i : Nat} (hi : i < 16) : (errExpected e).getLsbD i = e.getLsbD (28 + i) := by
  simp [errExpected, hi]

/-- The record of a transport fault holds the code in the low bits of `EXPECTED`, zero-extended to eight (R72, R132). -/
theorem transportErrinfo_getLsbD (c : Config) (d : Nat) (t : TransportCode) {i : Nat}
    (h : i < max 8 (c.tcodeBits : Nat)) :
    (transportErrinfo c d t).getLsbD (28 + i) = (t.getLsbD i && decide (i < c.tcodeBits)) := by
  have hbits : (c.tcodeBits : Nat) < 17 := c.tcodeBits.isLt
  rw [← errExpected_getLsbD _ (by omega), errExpected_transport c d t h]

/-- Codes of eight bits stand unchanged in `EXPECTED[7:0]` (R72, R132). -/
theorem transportErrinfo_code {c : Config} (hc : c.tcodeBits = 8) (d : Nat) (t : TransportCode) :
    (transportErrinfo c d t).extractLsb' 28 8 = t.setWidth 8 := by
  have hbits : (c.tcodeBits : Nat) = 8 := congrArg Fin.val hc
  refine BitVec.eq_of_getLsbD_eq fun i hi => ?_
  rw [BitVec.getLsbD_extractLsb', BitVec.getLsbD_setWidth, transportErrinfo_getLsbD c d t (by omega)]
  simp [hbits, hi]

/-- Settles O13: no answer, an answer of `PKT_LEN` bytes, and a failure, whose record is read bit by bit. -/
theorem xferResult : Obligations.XferResult := by
  refine ⟨fun _ => rfl, fun s => ⟨execXfer_of_unanswered, ?answered, ?failed⟩⟩
  case answered =>
    exact fun b rest ha hl => ⟨_, (execXfer_of_ok ha).trans (if_pos hl), State.receive_holds _ b, Memory.wf_ofList b 0,
      rfl⟩
  case failed =>
    intro c rest ha
    refine ⟨_, execXfer_of_err ha, fun hc => transportErrinfo_code hc _ c, fun i hi => ?_, fun i hi h8 => ?_,
      fun _ => rfl, rfl⟩
    · exact (transportErrinfo_getLsbD s.cfg s.draws c (by omega)).trans (by simp [hi])
    · exact (transportErrinfo_getLsbD s.cfg s.draws c (by omega)).trans (by simp [Nat.not_lt.2 hi])

/-- Settles O14: the marker test over the header word that the two bytes make. -/
theorem classifyResult : Obligations.ClassifyResult := by
  refine ⟨fun _ => rfl, fun s b0 b1 h0 h1 => ⟨s.draws + 1, ?_⟩⟩
  have hheader : s.header = joinBytes b0 b1 := by
    rw [State.header, State.pktByte_of_read h0, State.pktByte_of_read h1]
  have hexec : exec .classify s = .next (s.classifyAs (carriesMarker s.cfg (joinBytes b0 b1))) := by
    rw [← hheader]
    rfl
  rw [hexec]
  split
  case isTrue hm =>
    rw [(carriesMarker_iff s.cfg _).2 hm]
    rfl
  case isFalse hm =>
    rw [Bool.eq_false_iff.2 (mt (carriesMarker_iff s.cfg _).1 hm)]
    rfl

/-! ### Turns that drop a packet -/

theorem discards_append (a b : List TraceEvent) : discards (a ++ b) = discards a + discards b :=
  List.countP_append

/-- A packet of `PKT_LEN` bytes holds a header (R2, R3). -/
theorem two_le_of_length {c : Config} {p : List Byte} (hw : c.wf = true) (hl : p.length = c.pktLen) : 2 ≤ p.length := by
  have := ((Config.wf_iff c).1 hw).1
  omega

/-- The state after one turn of the retry loop that receives `p`, with `rest` still to come, and drops it (R90). -/
def State.dropped (s : State) (p : List Byte) (rest : List Answer) : State :=
  ({ s.requestTransfer with bus := rest }.receive p).classifyAs true

theorem State.dropped_eq (s : State) (p : List Byte) (rest : List Answer) :
    s.dropped p rest = { s with
      bus := rest, pkt := Memory.ofList 0 p, pos := s.pos + 1
      trace := s.trace ++ [TraceEvent.xfer (s.pos + 1) true, TraceEvent.discard (s.pos + 1)]
      state := Code.ipoll, draws := s.draws + 1 } :=
  State.receive_classifyAs_discard _ p

@[simp] theorem State.dropped_state (s : State) (p : List Byte) (rest : List Answer) :
    (s.dropped p rest).state = Code.ipoll := rfl

/-- `Drops n s t`: with the stream of `s`, `n` turns of the retry loop each drop a packet, and lead to `t` (R91). -/
inductive Drops : Nat → State → State → Prop where
  | none (s : State) : Drops 0 s s
  | turn {s t : State} {p : List Byte} {rest : List Answer} {n : Nat} : s.answers = .ok p :: rest →
      DiscardPacket s.cfg p → Drops n (s.dropped p rest) t → Drops (n + 1) s t

/-- `s` with the items that turns of the retry loop write taken from `t` (R90). -/
def State.withLoopItems (s t : State) : State :=
  { s with bus := t.bus, pkt := t.pkt, pos := t.pos, trace := t.trace, state := t.state, draws := t.draws }

theorem State.withLoopItems_trans {s t u : State} (hst : t = s.withLoopItems t) (htu : u = t.withLoopItems u) :
    u = s.withLoopItems u := by
  rw [htu, hst]
  rfl

/-- The answers left are part of the stream that was there. -/
theorem State.mem_stream_of_mem_rest {s : State} {a : Answer} {rest : List Answer} (h : s.answers = a :: rest)
    {x : Answer} (hx : x ∈ rest ++ s.busLoop) : x ∈ s.bus ++ s.busLoop := by
  rcases List.mem_append.1 hx with hx | hx
  · exact State.mem_of_mem_answers (h ▸ List.mem_cons_of_mem a hx)
  · exact List.mem_append_right _ hx

/-- A stream of discards without end stays one. -/
theorem State.EndlessDiscards.dropped {s : State} {p : List Byte} {rest : List Answer} (h : s.EndlessDiscards)
    (ha : s.answers = .ok p :: rest) : (s.dropped p rest).EndlessDiscards :=
  ⟨h.1, fun _ hx => h.2 _ (State.mem_stream_of_mem_rest ha hx)⟩

/-- The next answer of a stream of discards without end is a discard packet. -/
theorem State.EndlessDiscards.next {s : State} (h : s.EndlessDiscards) :
    ∃ p rest, s.answers = .ok p :: rest ∧ DiscardPacket s.cfg p := by
  cases ha : s.answers with
  | nil => exact absurd (State.answers_eq_nil.1 ha).2 h.1
  | cons a rest =>
    obtain ⟨p, rfl, hp⟩ := h.2 a (State.mem_of_mem_answers (ha ▸ List.mem_cons_self))
    exact ⟨p, rest, rfl, hp⟩

namespace Drops

variable {n : Nat} {s t : State}

theorem frame (h : Drops n s t) : t = s.withLoopItems t := by
  induction h with
  | none s => rfl
  | turn _ _ _ ih => exact State.withLoopItems_trans (by rw [State.dropped_eq]; rfl) ih

theorem state_eq (h : Drops n s t) (hs : s.state = Code.ipoll) : t.state = Code.ipoll := by
  induction h with
  | none s => exact hs
  | turn _ _ _ ih => exact ih rfl

/-- After a turn control is in IPOLL again. -/
theorem state_of_pos (h : Drops n s t) (hn : 0 < n) : t.state = Code.ipoll := by
  cases h with
  | none _ => exact absurd hn (Nat.lt_irrefl 0)
  | turn _ _ h => exact h.state_eq rfl

/-- From IPOLL to IPOLL the turns write the stream, `PKT`, the bookkeeping and the draw counter. -/
theorem frame_of_ipoll (h : Drops n s t) (hs : s.state = Code.ipoll) :
    t = { s with bus := t.bus, pkt := t.pkt, pos := t.pos, trace := t.trace, draws := t.draws } := by
  have hstate : t.state = s.state := (h.state_eq hs).trans hs.symm
  calc
    t = s.withLoopItems t := h.frame
    _ = _ := by rw [State.withLoopItems, hstate]

/-- Each turn records one transfer and one discard, and no row write (R30, R90). -/
theorem recorded (h : Drops n s t) : t.pos = s.pos + n ∧ discards t.trace = discards s.trace + n ∧
    transfers t.trace = transfers s.trace + n ∧ rowWrites t.trace = rowWrites s.trace := by
  induction h with
  | none s => exact ⟨rfl, rfl, rfl, rfl⟩
  | @turn s t p rest n _ _ _ ih =>
    obtain ⟨hpos, hdiscards, htransfers, hwrites⟩ := ih
    simp only [State.dropped_eq, discards_append, transfers_append, rowWrites_append] at hpos hdiscards htransfers hwrites
    have two : ∀ k, discards [TraceEvent.xfer k true, TraceEvent.discard k] = 1 ∧
        transfers [TraceEvent.xfer k true, TraceEvent.discard k] = 1 ∧
        rowWrites [TraceEvent.xfer k true, TraceEvent.discard k] = 0 := fun _ => ⟨rfl, rfl, rfl⟩
    simp only [two] at hdiscards htransfers hwrites
    omega

theorem run_eq (h : Drops n s t) : t.run = s.run := by rw [h.frame]; rfl

theorem cfg_eq (h : Drops n s t) : t.cfg = s.cfg := by rw [h.frame]; rfl

theorem cs_eq (h : Drops n s t) : t.cs = s.cs := by rw [h.frame]; rfl

theorem err_eq (h : Drops n s t) : t.err = s.err := by rw [h.frame]; rfl

theorem ports_eq (h : Drops n s t) : t.ports = s.ports := by rw [h.frame]; rfl

theorem quiet (h : Drops n s t) (q : s.Quiet) (hs : s.state = Code.ipoll) : t.Quiet where
  config := h.cfg_eq ▸ q.config
  stateCode := by rw [h.state_eq hs]; decide
  errCode := h.err_eq ▸ q.errCode
  ports := h.ports_eq.trans q.ports

/-- Every answer that was used brought a discard packet. -/
theorem answers_discards (h : Drops n s t) :
    ∀ a ∈ (s.bus ++ s.busLoop).take n, ∃ d, a = .ok d ∧ DiscardPacket s.cfg d := by
  induction h with
  | none s => simp
  | @turn s t p rest n ha hp _ ih =>
    intro a hmem
    have used : a = .ok p ∨ a ∈ (rest ++ s.busLoop).take n := by
      cases hb : s.bus with
      | nil =>
        rw [hb, List.nil_append, ← State.answers_of_bus_nil hb, ha, List.take_succ_cons, List.mem_cons] at hmem
        exact hmem.imp_right fun hm => by
          rw [List.take_append]
          exact List.mem_append_left _ hm
      | cons b bs =>
        obtain ⟨rfl, rfl⟩ := List.cons.inj ((State.answers_of_bus hb).symm.trans ha)
        rw [hb, List.cons_append, List.take_succ_cons, List.mem_cons] at hmem
        exact hmem
    exact used.elim (fun e => ⟨p, e, hp⟩) (ih a)

/-- More turns than `bus` lists answers need answers that repeat. -/
theorem busLoop_ne_nil (h : Drops n s t) (hn : s.bus.length < n) : s.busLoop ≠ [] := by
  induction h with
  | none s => exact absurd hn (Nat.not_lt_zero _)
  | @turn s t p rest n ha _ _ ih =>
    cases hb : s.bus with
    | nil =>
      rw [← State.answers_of_bus_nil hb, ha]
      exact List.cons_ne_nil _ _
    | cons b bs =>
      obtain ⟨rfl, rfl⟩ := List.cons.inj ((State.answers_of_bus hb).symm.trans ha)
      exact ih (by rw [hb] at hn; exact Nat.lt_of_succ_lt_succ hn)

theorem endless (h : Drops n s t) (he : s.EndlessDiscards) : t.EndlessDiscards := by
  induction h with
  | none s => exact he
  | turn ha _ _ ih => exact ih (he.dropped ha)

/-- The turns that use up the whole stream and one more show that it is discards without end. -/
theorem endless_of_stream (h : Drops n s t) (hn : n = s.bus.length + s.busLoop.length + 1) : s.EndlessDiscards := by
  refine ⟨h.busLoop_ne_nil (by omega), fun a ha => h.answers_discards a ?_⟩
  rwa [List.take_of_length_le (by rw [List.length_append]; omega)]

/-- In quiet steps a turn takes three: IPOLL, XFER and CLASSIFY (R86, R87, R89). -/
theorem run_add (h : Drops n s t) (q : s.Quiet) (hs : s.state = Code.ipoll) (hr : s.run = true) (k : Nat) :
    Host.Core.run Sys2Proof.core (3 * n + k) s = Host.Core.run Sys2Proof.core k t := by
  induction h with
  | none s => rw [Nat.mul_zero, Nat.zero_add]
  | @turn s t p rest n ha hp _ ih =>
    have requested : Move s s.requestTransfer := .request hs hr
    have received : Move s.requestTransfer ({ s.requestTransfer with bus := rest }.receive p) := .receive rfl ha hp.1
    have classified : Move ({ s.requestTransfer with bus := rest }.receive p) (s.dropped p rest) := by
      have hm : ({ s.requestTransfer with bus := rest }.receive p).isDiscard = true := by
        rw [State.isDiscard, State.header_of_pkt (two_le_of_length q.config hp.1) rfl]
        exact hp.2
      rw [State.dropped, ← hm]
      exact .classify rfl
    have q1 := q.move requested
    have q2 := q1.move received
    rw [show 3 * (n + 1) + k = 3 * n + k + 1 + 1 + 1 by omega, requested.run_succ q, received.run_succ q1,
      classified.run_succ q2, ih (q2.move classified) rfl hr]

/-- In the composite a turn is one of the loop's (R85). -/
theorem syncLoop_add (h : Drops n s t) (hw : s.cfg.wf = true) (hr : s.run = true) (k : Nat) :
    syncLoop (n + k) s = syncLoop k t := by
  induction h with
  | none s => rw [Nat.zero_add]
  | @turn s t p rest n ha hp _ ih =>
    have hround : syncRound s = .next (s.dropped p rest) := by
      rw [syncRound_receives hr ha hp.1 (two_le_of_length hw hp.1), hp.2]
      rfl
    rw [show n + 1 + k = n + k + 1 by omega, syncLoop, hround, andThen_next,
      whenAt_of_eq (s.dropped_state p rest), ih hw hr]

end Drops

/-- Discard packets at the head of `bus` are dropped one after the other. -/
theorem exists_drops_of_bus {ds : List (List Byte)} {s : State} {rest : List Answer}
    (hb : s.bus = discardAnswers ds ++ rest) (hd : ∀ d ∈ ds, DiscardPacket s.cfg d) :
    ∃ t, Drops ds.length s t ∧ t.bus = rest := by
  induction ds generalizing s with
  | nil => exact ⟨s, .none s, hb⟩
  | cons d ds ih =>
    obtain ⟨hp, hds⟩ := List.forall_mem_cons.1 hd
    obtain ⟨t, ht, hrest⟩ := ih (s := s.dropped d (discardAnswers ds ++ rest)) rfl hds
    exact ⟨t, .turn (State.answers_of_bus hb) hp ht, hrest⟩

/-- A stream of discards without end is dropped for any number of turns. -/
theorem exists_drops_of_endless {s : State} (h : s.EndlessDiscards) (n : Nat) : ∃ t, Drops n s t := by
  induction n generalizing s with
  | zero => exact ⟨s, .none s⟩
  | succ k ih =>
    obtain ⟨p, rest, ha, hp⟩ := h.next
    obtain ⟨t, ht⟩ := ih (h.dropped ha)
    exact ⟨t, .turn ha hp ht⟩

/-! ### The turn that ends the loop -/

/-- The state after a turn of the retry loop that receives `p`, with `rest` still to come, and goes on to SEQX (R89). -/
def State.delivered (s : State) (p : List Byte) (rest : List Answer) : State :=
  ({ s.requestTransfer with bus := rest }.receive p).classifyAs false

theorem State.delivered_holds (s : State) (p : List Byte) (rest : List Answer) : (s.delivered p rest).Holds p :=
  Memory.read_ofList_zero p

/-- `LastTurn s t`: the next turn of the retry loop, from `s` with `RUN = 1`, ends it and leads to `t` (R85). -/
inductive LastTurn (s : State) : State → Prop where
  /-- No answer comes, and control waits in XFER (R87). -/
  | waits : s.answers = [] → LastTurn s s.requestTransfer
  | fails {c : TransportCode} {rest : List Answer} : s.answers = .err c :: rest →
      LastTurn s ({ s.requestTransfer with bus := rest }.raiseTransport c)
  | delivers {p : List Byte} {rest : List Answer} : s.answers = .ok p :: rest → DataPacket s.cfg p →
      LastTurn s (s.delivered p rest)

/-- A turn that leaves control elsewhere than in IPOLL is the last. -/
theorem syncLoop_of_round {s t : State} (h : syncRound s = .next t) (ht : t.state ≠ Code.ipoll) (k : Nat) :
    syncLoop (k + 1) s = .next t := by
  rw [syncLoop, h, andThen_next, whenAt_of_ne ht]

theorem LastTurn.syncLoop_eq {s t : State} (h : LastTurn s t) (hw : s.cfg.wf = true) (hr : s.run = true) (k : Nat) :
    syncLoop (k + 1) s = .next t := by
  cases h with
  | waits ha => exact syncLoop_of_round (syncRound_waits hr ha) (show Code.xfer ≠ Code.ipoll by decide) k
  | fails ha => exact syncLoop_of_round (syncRound_fails hr ha) (show Code.fault ≠ Code.ipoll by decide) k
  | delivers ha hp =>
    have hround := syncRound_receives hr ha hp.1 (two_le_of_length hw hp.1)
    rw [hp.2] at hround
    exact syncLoop_of_round hround (show Code.seqx ≠ Code.ipoll by decide) k

/-- With `RUN = 1` at most `n` turns of the loop are `n` turns that drop a packet, or fewer such turns and a last one. -/
theorem syncLoop_cases {s : State} (hw : s.cfg.wf = true) (hr : s.run = true) (hb : s.BusAdmitted) (n : Nat) :
    ∃ t, syncLoop n s = .next t ∧ (Drops n s t ∨ ∃ m u, Drops m s u ∧ LastTurn u t) := by
  induction n generalizing s with
  | zero => exact ⟨s, rfl, .inl (.none s)⟩
  | succ k ih =>
    have last {t : State} (h : LastTurn s t) : ∃ t, syncLoop (k + 1) s = .next t ∧
        (Drops (k + 1) s t ∨ ∃ m u, Drops m s u ∧ LastTurn u t) :=
      ⟨t, h.syncLoop_eq hw hr k, .inr ⟨0, s, .none s, h⟩⟩
    rcases ha : s.answers with _ | ⟨⟨p⟩ | ⟨c⟩, rest⟩
    case nil => exact last (.waits ha)
    case cons.err => exact last (.fails ha)
    case cons.ok =>
      have hl : p.length = s.cfg.pktLen := hb p (State.mem_of_mem_answers (ha ▸ List.mem_cons_self))
      cases hm : carriesMarker s.cfg (headerOfBytes p) with
      | false => exact last (.delivers ha ⟨hl, hm⟩)
      | true =>
        have hp : DiscardPacket s.cfg p := ⟨hl, hm⟩
        obtain ⟨t, ht, hcases⟩ := ih (s := s.dropped p rest) hw hr
          fun b hmem => hb b (State.mem_stream_of_mem_rest ha hmem)
        have hloop : syncLoop (k + 1) s = .next t := by
          rw [Nat.add_comm k 1, (Drops.turn ha hp (.none _)).syncLoop_add hw hr, ht]
        exact ⟨t, hloop, hcases.imp (.turn ha hp) fun ⟨m, u, hu, hlast⟩ => ⟨m + 1, u, .turn ha hp hu, hlast⟩⟩

/-- What SYNC never writes (R90): the datapath registers, the count, the frame, the table, `RUN` and the configuration. And
no row write is recorded. -/
structure KeepsDatapath (s t : State) : Prop where
  crc : t.crc = s.crc
  seq : t.seq = s.seq
  rxcrc : t.rxcrc = s.rxcrc
  iter : t.iter = s.iter
  frame : t.frame = s.frame
  table : t.table = s.table
  run : t.run = s.run
  cfg : t.cfg = s.cfg
  rowWrites : rowWrites t.trace = rowWrites s.trace

theorem KeepsDatapath.trans {s t u : State} (h : KeepsDatapath s t) (h' : KeepsDatapath t u) : KeepsDatapath s u :=
  ⟨h'.crc.trans h.crc, h'.seq.trans h.seq, h'.rxcrc.trans h.rxcrc, h'.iter.trans h.iter, h'.frame.trans h.frame,
    h'.table.trans h.table, h'.run.trans h.run, h'.cfg.trans h.cfg, h'.rowWrites.trans h.rowWrites⟩

/-- A turn that drops a packet writes the loop's items only. -/
theorem Drops.keepsDatapath {n : Nat} {s t : State} (h : Drops n s t) : KeepsDatapath s t := by
  obtain ⟨-, -, -, hwrites⟩ := h.recorded
  refine ⟨?_, ?_, ?_, ?_, ?_, ?_, ?_, ?_, hwrites⟩ <;> (rw [h.frame]; rfl)

theorem LastTurn.keepsDatapath {s t : State} (h : LastTurn s t) : KeepsDatapath s t := by
  cases h with
  | waits _ => exact ⟨rfl, rfl, rfl, rfl, rfl, rfl, rfl, rfl, rfl⟩
  | fails _ | delivers _ _ => exact ⟨rfl, rfl, rfl, rfl, rfl, rfl, rfl, rfl, rowWrites_append _ _⟩

/-- How the last turn ends: the three outcomes of R85 and R87 that `RUN = 1` admits. -/
theorem LastTurn.outcome {s t : State} (h : LastTurn s t) (hw : s.cfg.wf = true) :
    (t.state = Code.seqx ∧ t.cs = s.cs ∧ t.err = s.err ∧ t.pkt.full s.cfg.pktLen = true ∧
      t.header &&& s.cfg.discardMask ≠ s.cfg.discardMask) ∨
    (t.state = Code.fault ∧ t.err = 1#3 ∧ t.cs = false) ∨
    (t.state = Code.xfer ∧ t.answers = [] ∧ t.cs = s.cs ∧ t.err = s.err) := by
  cases h with
  | waits ha => exact .inr (.inr ⟨rfl, ha, rfl, rfl⟩)
  | fails _ => exact .inr (.inl ⟨rfl, rfl, rfl⟩)
  | @delivers p _ _ hp =>
    refine .inl ⟨rfl, rfl, rfl, hp.1 ▸ Memory.full_ofList p, fun hm => ?_⟩
    rw [State.header_of_pkt (two_le_of_length hw hp.1) rfl, ← carriesMarker_iff, hp.2] at hm
    exact Bool.false_ne_true hm

/-! ### SYNC -/

/-- With `RUN = 0` SYNC is Cancelled and makes no transfer (R85, R86). -/
theorem execSync_of_not_run {s : State} (hr : s.run = false) : execSync s = .next s.enterCancelled :=
  syncLoop_of_round (syncRound_cancelled hr) (show Code.cancelled ≠ Code.ipoll by decide) _

/-- Settles O16: the loop drops packets to the end of the stream and once more, or it has a last turn. -/
theorem syncOutcomes : Obligations.SyncOutcomes := by
  intro s hw hb
  rcases Bool.eq_false_or_eq_true s.run with hr | hr
  case inr =>
    exact ⟨_, execSync_of_not_run hr, fun _ => rfl, fun h => (Bool.false_ne_true (hr.symm.trans h)).elim, rfl, rfl, rfl,
      rfl, rfl, rfl, rfl, rfl, rfl⟩
  case inl =>
    obtain ⟨t, ht, hcases⟩ := syncLoop_cases hw hr hb (s.bus.length + s.busLoop.length + 1)
    have kept : KeepsDatapath s t :=
      hcases.elim Drops.keepsDatapath fun ⟨_, _, hu, hlast⟩ => hu.keepsDatapath.trans hlast.keepsDatapath
    refine ⟨t, ht, fun h => (Bool.false_ne_true (h.symm.trans hr)).elim, fun _ => ?outcome, kept.crc, kept.seq, kept.rxcrc,
      kept.iter, kept.frame, kept.table, kept.run, kept.cfg, kept.rowWrites⟩
    case outcome =>
      rcases hcases with h | ⟨m, u, hu, hlast⟩
      · have hends := h.endless_of_stream rfl
        exact .inr (.inr (.inr ⟨h.state_of_pos (Nat.succ_pos _), hends, h.endless hends, h.cs_eq, h.err_eq⟩))
      · have houtcome := hlast.outcome (hu.cfg_eq ▸ hw)
        rw [hu.cfg_eq, hu.cs_eq, hu.err_eq] at houtcome
        rcases houtcome with hdelivered | hfailed | hwaits
        · exact .inl hdelivered
        · exact .inr (.inl hfailed)
        · exact .inr (.inr (.inl hwaits))

/-- Settles O15: the discards are dropped one by one, and the DATA packet's turn is the last. -/
theorem syncSkipsExactlyTheDiscards : Obligations.SyncSkipsExactlyTheDiscards := by
  intro s ds p rest hw hr hb hds hp
  obtain ⟨u, hu, hrest⟩ := exists_drops_of_bus hb hds
  obtain ⟨hpos, hdiscards, htransfers, hwrites⟩ := hu.recorded
  have hlast : LastTurn u (u.delivered p rest) := .delivers (State.answers_of_bus hrest) (hu.cfg_eq ▸ hp)
  have hsync : execSync s = .next (u.delivered p rest) := by
    have hfuel : s.bus.length + s.busLoop.length + 1 = ds.length + (rest.length + 1 + s.busLoop.length + 1) := by
      simp [hb, discardAnswers, Nat.add_assoc]
    rw [execSync, hfuel, hu.syncLoop_add hw hr, hlast.syncLoop_eq (hu.cfg_eq ▸ hw) (hu.run_eq.trans hr)]
  refine ⟨_, hsync, rfl, u.delivered_holds p rest, ?pos, ?discards, ?transfers, ?writes,
    State.withLoopItems_trans hu.frame rfl⟩
  case pos => exact (congrArg (· + 1) hpos).trans (Nat.add_assoc ..)
  case discards => exact (discards_append _ _).trans hdiscards
  case transfers => exact (transfers_append _ _).trans ((congrArg (· + 1) htransfers).trans (Nat.add_assoc ..))
  case writes => exact (rowWrites_append _ _).trans hwrites

/-! ### The loop on discards, step by step -/

/-- Settles O18: the discards at the head of the stream are that many turns of three steps. -/
theorem discardsNeverEndTheLoop : Obligations.DiscardsNeverEndTheLoop := by
  intro ds s rest hw he hp hs hr hb hds
  have q : s.Quiet := ⟨hw, by rw [hs]; decide, he, hp⟩
  obtain ⟨t, ht, rfl⟩ := exists_drops_of_bus hb hds
  obtain ⟨hpos, hdiscards, -, -⟩ := ht.recorded
  exact ⟨t, ht.run_add q hs hr 0, hpos, hdiscards, ht.frame_of_ipoll hs⟩

/-- Between two turns the loop is in XFER and then in CLASSIFY, if the next answer is a discard packet. -/
theorem run_within_turn {s : State} (q : s.Quiet) (hs : s.state = Code.ipoll) (hr : s.run = true)
    (he : s.EndlessDiscards) {r : Nat} (h3 : r < 3) :
    ∃ t, Host.Core.run Sys2Proof.core r s = .next t ∧
      (t.state = Code.ipoll ∨ t.state = Code.xfer ∨ t.state = Code.classify) := by
  have requested : Move s s.requestTransfer := .request hs hr
  obtain ⟨p, rest, ha, hp⟩ := he.next
  have received : Move s.requestTransfer ({ s.requestTransfer with bus := rest }.receive p) := .receive rfl ha hp.1
  match r with
  | 0 => exact ⟨s, rfl, .inl hs⟩
  | 1 => exact ⟨_, requested.run_succ q 0, .inr (.inl rfl)⟩
  | 2 => exact ⟨_, (requested.run_succ q 1).trans (received.run_succ (q.move requested) 0), .inr (.inr rfl)⟩

/-- Settles O60: every number of turns drops as many packets, and a run of any length ends in or between two turns. -/
theorem endlessDiscardsAreAnInfiniteRun : Obligations.EndlessDiscardsAreAnInfiniteRun := by
  intro s hw he hp hs hr hends
  have q : s.Quiet := ⟨hw, by rw [hs]; decide, he, hp⟩
  refine ⟨fun n => ?steps, fun n => ?turns⟩
  case steps =>
    obtain ⟨u, hu⟩ := exists_drops_of_endless hends (n / 3)
    have hrun := hu.run_add q hs hr (n % 3)
    rw [Nat.div_add_mod] at hrun
    rw [hrun]
    exact run_within_turn (hu.quiet q hs) (hu.state_eq hs) (hu.run_eq.trans hr) (hu.endless hends)
      (Nat.mod_lt n (by decide))
  case turns =>
    obtain ⟨t, ht⟩ := exists_drops_of_endless hends n
    obtain ⟨hpos, hdiscards, htransfers, hwrites⟩ := ht.recorded
    exact ⟨t, ht.run_add q hs hr 0, ht.endless hends, hpos, hdiscards, htransfers, hwrites, ht.frame_of_ipoll hs⟩

end Sys2Proof.Machine
end

section
/-! PROOFS. The packet validator: its micro-operations, the three outcomes of PROCESS, what PROCESS does not read, and what one
corrupted byte does to an accepted packet. -/

namespace Sys2Proof.Machine

/-! ### The micro-operations -/

/-- The header word is its two bytes joined (R55). -/
theorem State.header_of_reads {s : State} {b0 b1 : Byte} (h0 : s.pkt.read 0 = some b0) (h1 : s.pkt.read 1 = some b1) :
    s.header = joinBytes b0 b1 := by
  rw [State.header, State.pktByte_of_read h0, State.pktByte_of_read h1]

/-- Settles O19: the sequence number of the header word that the two bytes make. -/
theorem sequenceExtractionResult : Obligations.SequenceExtractionResult := by
  refine ⟨fun _ => rfl, fun s b0 b1 h0 h1 => ⟨s.draws + 1, ?_⟩⟩
  rw [← State.header_of_reads h0 h1]
  rfl

/-- Settles O20: the two bytes read, joined in the configured order. -/
theorem checksumExtractionResult : Obligations.ChecksumExtractionResult := by
  refine ⟨fun _ => rfl, fun s b2 b3 h2 h3 => ⟨s.draws + 1, ?_⟩⟩
  rw [← State.pktByte_of_read h2, ← State.pktByte_of_read h3]
  rfl

/-- Settles O21: what the four writes leave at each address. -/
theorem canonResult : Obligations.CanonResult := by
  refine ⟨fun _ => rfl, fun s b0 b1 h0 h1 => ?_⟩
  rw [← State.header_of_reads h0 h1]
  refine ⟨_, rfl, ?high, ?low, ?third, ?fourth, fun a ha => ?others, State.canonicalPkt_wf, rfl⟩
  case high | low | third | fourth => exact s.canonicalPkt_read _
  case others =>
    refine (s.canonicalPkt_read a).trans ?_
    rw [if_neg (by omega), if_neg (by omega), if_neg (by omega), if_neg (by omega)]

/-- Settles O22: the packet is what CRCRUN reads from `PKT`. -/
theorem crcrunResult : Obligations.CrcrunResult := by
  refine ⟨fun _ => rfl, fun s p hl h => ⟨s.draws + 1, ?_⟩⟩
  rw [← State.pktBytes_of_reads hl h]
  rfl

theorem execCompare_of_match {s : State} (h : s.rxcrc = s.crc) : execCompare s = .next (s.goto Code.seqchk) :=
  congrArg Host.Outcome.next (if_pos (s.crcMatch_iff.2 h))

theorem execCompare_of_mismatch {s : State} (h : s.rxcrc ≠ s.crc) : execCompare s = .next s.raiseChecksum :=
  congrArg Host.Outcome.next (if_neg (mt s.crcMatch_iff.1 h))

theorem execSeqchk_of_inRange {s : State} (h : s.seq.toNat < s.cfg.rows) : execSeqchk s = .next (s.goto Code.store) :=
  congrArg Host.Outcome.next (if_pos (s.seqOk_iff.2 h))

theorem execSeqchk_of_outside {s : State} (h : ¬ s.seq.toNat < s.cfg.rows) : execSeqchk s = .next s.raiseSeqRange :=
  congrArg Host.Outcome.next (if_neg (mt s.seqOk_iff.1 h))

/-- Settles O23: both branches are the model's shared operations written out. -/
theorem compareResult : Obligations.CompareResult := by
  refine ⟨fun _ => rfl, fun s => ?_⟩
  split
  case isTrue h => exact execCompare_of_match h
  case isFalse h => exact execCompare_of_mismatch h

/-- Settles O24: both branches are the model's shared operations written out. -/
theorem seqchkResult : Obligations.SeqchkResult := by
  refine ⟨fun _ => rfl, fun s => ?_⟩
  split
  case isTrue h => exact execSeqchk_of_inRange h
  case isFalse h => exact execSeqchk_of_outside h

/-! ### The outcomes of PROCESS -/

theorem execProcess_of_mismatch {s : State} (h : s.prepared.rxcrc ≠ s.prepared.crc) :
    execProcess s = .next s.prepared.raiseChecksum := by
  rw [execProcess_eq, if_neg h]

theorem execProcess_of_outside {s : State} (h : s.prepared.rxcrc = s.prepared.crc)
    (hr : ¬ s.prepared.seq.toNat < s.cfg.rows) : execProcess s = .next (s.prepared.goto Code.seqchk).raiseSeqRange := by
  rw [execProcess_eq, if_pos h, if_neg hr]

/-- A matching checksum and a row index: the row is stored and counted, whatever the marker bits of the packet in `PKT` are
(R94, R107, R118). -/
theorem execProcess_of_inRange {s : State} {p : List Byte} (h : s.Holds p) (hn : p.length = 4 + 2 * s.cfg.cols)
    (hm : s.prepared.rxcrc = s.prepared.crc) (hr : s.prepared.seq.toNat < s.cfg.rows) :
    execProcess s = .next { s.prepared with
      frame := s.frame.writeFrom (cellAddress s.cfg s.prepared.seq.toNat 0)
        ((List.range s.cfg.cols).map (packetSample p))
      trace := s.trace ++ [TraceEvent.rowWrite s.pos s.prepared.seq.toNat]
      iter := s.iter + 1, state := Code.opoll, draws := s.prepared.draws + 1 } := by
  rw [execProcess_eq, if_pos hm, if_pos hr, h.stored_samples hn]

/-- Settles O30: the registers and `PKT` are those of the prepared state in all three outcomes, and the two comparisons of the
packet's values decide which it is. -/
theorem processOutcomes : Obligations.ProcessOutcomes := by
  intro s p hw ht hlen h
  have hcols := ((Config.wf_iff _).1 hw).1
  have hl : 4 ≤ p.length := by omega
  have holds : s.Holds p := h
  have hseq := holds.prepared_seq hl
  have hrx := holds.prepared_rxcrc hl
  have hcrc := holds.prepared_crc hl hlen ht
  have match_iff : s.prepared.rxcrc = s.prepared.crc ↔ packetChecksum s.cfg p = recomputedChecksum s.cfg p := by
    rw [hrx, hcrc]
  have inRange_iff : s.prepared.seq.toNat < s.cfg.rows ↔ ¬ s.cfg.rows ≤ (packetSeq s.cfg p).toNat := by
    rw [hseq, Nat.not_le]
  split_ifs with hne hout
  next =>
    exact ⟨_, execProcess_of_mismatch (mt match_iff.1 hne), hseq, hrx, hcrc, holds.prepared hl, rfl⟩
  next =>
    exact ⟨_, execProcess_of_outside (match_iff.2 (not_not.1 hne)) (mt inRange_iff.1 (not_not_intro hout)), hseq, hrx, hcrc,
      holds.prepared hl, rfl⟩
  next =>
    exact ⟨_, execProcess_of_inRange holds (by omega) (match_iff.2 (not_not.1 hne)) (inRange_iff.2 hout), hseq, hrx, hcrc,
      holds.prepared hl, fun _ => read_storedRow, fun _ => read_outside_storedRow, rfl⟩

/-! ### PROCESS does not read the flag bits -/

/-- The part of PROCESS after CANON: CRCRUN to NEXT (R94). -/
def execFromCrcrun (s : State) : Result :=
  andThen (execCrcrun s) fun s => andThen (execCompare s) <|
    whenAt Code.seqchk fun s => andThen (execSeqchk s) <|
      whenAt Code.store fun s => andThen (execStore s) execNext

/-- The outcome of PROCESS depends on nothing but the state that CANON leaves. -/
theorem execProcess_eq_fromCrcrun (s : State) : execProcess s = execFromCrcrun s.canonicalized := rfl

/-- The state that CANON leaves, by the values of the packet received (R95 to R97). -/
theorem canonicalized_of_packet (s : State) {p : List Byte} (hl : 4 ≤ p.length) :
    ({ s with pkt := Memory.ofList 0 p } : State).canonicalized = { s with
      seq := packetSeq s.cfg p, rxcrc := packetChecksum s.cfg p, pkt := Memory.ofList 0 (canonicalBytes s.cfg p)
      state := Code.crcrun, draws := s.draws + 3 } := by
  have holds : ({ s with pkt := Memory.ofList 0 p } : State).Holds p := Memory.read_ofList_zero p
  have hpkt : ({ s with pkt := Memory.ofList 0 p } : State).canonicalized.pkt = Memory.ofList 0 (canonicalBytes s.cfg p) :=
    Memory.ext_read (State.canonicalPkt_wf (Memory.wf_ofList p 0)) (Memory.wf_ofList _ 0) fun a =>
      (holds.canonicalized hl a).trans (Memory.read_ofList_zero _ a).symm
  rw [← hpkt, packetSeq, ← holds.header hl, ← holds.extracted_rxcrc hl]
  rfl

/-- Where sequence bits and flag bits are disjoint, the sequence number is that of the header without its flag bits (R57, R58). -/
theorem seqOfHeader_clearFlags {c : Config} (hd : c.seqMask &&& c.flagMask = 0#16) (h : Half) :
    seqOfHeader c (clearFlags c h) = seqOfHeader c h := by
  have masked : clearFlags c h &&& c.seqMask = h &&& c.seqMask := by
    ext i hi
    have hbit : c.seqMask[i] = true → c.flagMask[i] = false := by
      simpa [hi] using congrArg (·.getLsbD i) hd
    cases hm : c.seqMask[i] <;> simp [clearFlags, hm, hbit]
  rw [seqOfHeader, masked, seqOfHeader]

/-- Two packets with the same header but for the flag bits, and the same bytes after it, lead PROCESS to the same outcome. -/
theorem execProcess_congr_flags {s : State} {p p' : List Byte} (hd : s.cfg.seqMask &&& s.cfg.flagMask = 0#16)
    (hl : 4 ≤ p.length) (hl' : 4 ≤ p'.length)
    (hflags : clearFlags s.cfg (headerOfBytes p) = clearFlags s.cfg (headerOfBytes p')) (hdrop : p.drop 2 = p'.drop 2) :
    execProcess { s with pkt := Memory.ofList 0 p } = execProcess { s with pkt := Memory.ofList 0 p' } := by
  have byte_eq (i : Nat) : p.getD (2 + i) 0#8 = p'.getD (2 + i) 0#8 := by
    simpa [List.getD_eq_getElem?_getD] using congrArg (·.getD i 0#8) hdrop
  have hseq : packetSeq s.cfg p = packetSeq s.cfg p' := by
    rw [packetSeq, ← seqOfHeader_clearFlags hd, hflags, seqOfHeader_clearFlags hd, packetSeq]
  have hsum : packetChecksum s.cfg p = packetChecksum s.cfg p' := by
    rw [packetChecksum, byte_eq 0, byte_eq 1, packetChecksum]
  have hcanon : canonicalBytes s.cfg p = canonicalBytes s.cfg p' := by
    have hdrop4 : p.drop 4 = p'.drop 4 := by simpa using congrArg (List.drop 2) hdrop
    rw [canonicalBytes, hflags, hdrop4, canonicalBytes]
  simp only [execProcess_eq_fromCrcrun, canonicalized_of_packet s hl, canonicalized_of_packet s hl', hseq, hsum, hcanon]

/-- Settles O31: what CANON leaves does not hold the flag bits, and PROCESS always completes. -/
theorem processIgnoresFlagBits : Obligations.ProcessIgnoresFlagBits := by
  intro s p p' hw hd hlen hlen' hflags hdrop
  have hcols := ((Config.wf_iff _).1 hw).1
  exact ⟨execProcess_congr_flags hd (by omega) (by omega) hflags hdrop, execProcess_next _⟩

/-! ### One corrupted byte -/

theorem joinBytes_inj {a b a' b' : Byte} : joinBytes a b = joinBytes a' b' ↔ a = a' ∧ b = b' := by
  refine ⟨fun h => ⟨?high, ?low⟩, fun ⟨ha, hb⟩ => by rw [ha, hb]⟩
  case high => simpa using congrArg (·.extractLsb' 8 8) h
  case low => simpa using congrArg (·.extractLsb' 0 8) h

/-- No byte of the checksum field is lost, in either byte order (R59). -/
theorem checksumField_inj {c : Config} {a b a' b' : Byte} :
    checksumField c a b = checksumField c a' b' ↔ a = a' ∧ b = b' := by
  unfold checksumField
  split
  · exact joinBytes_inj
  · exact joinBytes_inj.trans and_comm

/-- The flag bits of the two header bytes are cleared apart. -/
theorem clearFlags_joinBytes (c : Config) (a b : Byte) :
    clearFlags c (joinBytes a b) =
      joinBytes (a &&& (~~~c.flagMask).extractLsb' 8 8) (b &&& (~~~c.flagMask).extractLsb' 0 8) := by
  rw [clearFlags, ← joinBytes_split (~~~c.flagMask), joinBytes_high, joinBytes_low]
  exact BitVec.and_append

/-- The canonicalized form of a packet byte by byte (R97). -/
theorem canonicalBytes_cons (c : Config) (b0 b1 b2 b3 : Byte) (rest : List Byte) :
    canonicalBytes c (b0 :: b1 :: b2 :: b3 :: rest) =
      (b0 &&& (~~~c.flagMask).extractLsb' 8 8) :: (b1 &&& (~~~c.flagMask).extractLsb' 0 8) :: 0#8 :: 0#8 :: rest := by
  have hheader : headerOfBytes (b0 :: b1 :: b2 :: b3 :: rest) = joinBytes b0 b1 := rfl
  rw [canonicalBytes, hheader, clearFlags_joinBytes, joinBytes_high, joinBytes_low]
  rfl

/-- A packet of at least four bytes, with the header and the checksum field named. -/
theorem exists_leadingBytes {p : List Byte} (hl : 4 ≤ p.length) :
    ∃ b0 b1 b2 b3 rest, p = b0 :: b1 :: b2 :: b3 :: rest := by
  match p, hl with
  | b0 :: b1 :: b2 :: b3 :: rest, _ => exact ⟨b0, b1, b2, b3, rest, rfl⟩

/-- A byte after the header is no part of the header word. -/
theorem headerOfBytes_set {p : List Byte} {k : Nat} (x : Byte) (hk : 2 ≤ k) :
    headerOfBytes (p.set k x) = headerOfBytes p := by
  simp only [headerOfBytes, List.getD_eq_getElem?_getD]
  rw [List.getElem?_set_ne (by omega), List.getElem?_set_ne (by omega)]

/-- A byte of the checksum field takes part in the transmitted checksum only. -/
theorem checksums_set_field {c : Config} {p : List Byte} {k : Nat} {x : Byte} (hl : 4 ≤ p.length) (hk : k = 2 ∨ k = 3)
    (hx : p.getD k 0#8 ≠ x) :
    packetChecksum c (p.set k x) ≠ packetChecksum c p ∧ recomputedChecksum c (p.set k x) = recomputedChecksum c p := by
  obtain ⟨b0, b1, b2, b3, rest, rfl⟩ := exists_leadingBytes hl
  rcases hk with rfl | rfl
  · exact ⟨fun e => hx (checksumField_inj.1 e).1.symm, rfl⟩
  · exact ⟨fun e => hx (checksumField_inj.1 e).2.symm, rfl⟩

/-- A byte of the payload, or a header byte with more than flag bits changed, changes the canonicalized packet in exactly that
byte. -/
theorem canonicalBytes_set {c : Config} {p : List Byte} {k : Nat} {x : Byte} (hl : 4 ≤ p.length) (hx : p.getD k 0#8 ≠ x)
    (hfield : ¬ (k = 2 ∨ k = 3)) (hk : 2 ≤ k ∨ clearFlags c (headerOfBytes (p.set k x)) ≠ clearFlags c (headerOfBytes p)) :
    ∃ y, (canonicalBytes c p).getD k 0#8 ≠ y ∧ canonicalBytes c (p.set k x) = (canonicalBytes c p).set k y := by
  obtain ⟨b0, b1, b2, b3, rest, rfl⟩ := exists_leadingBytes hl
  match k with
  | 0 =>
    have hne : clearFlags c (joinBytes x b1) ≠ clearFlags c (joinBytes b0 b1) := hk.resolve_left (by decide)
    simp only [clearFlags_joinBytes, ne_eq, joinBytes_inj, and_true] at hne
    exact ⟨x &&& (~~~c.flagMask).extractLsb' 8 8, by rw [canonicalBytes_cons]; exact Ne.symm hne,
      by simp only [List.set_cons_zero, canonicalBytes_cons]⟩
  | 1 =>
    have hne : clearFlags c (joinBytes b0 x) ≠ clearFlags c (joinBytes b0 b1) := hk.resolve_left (by decide)
    simp only [clearFlags_joinBytes, ne_eq, joinBytes_inj, true_and] at hne
    exact ⟨x &&& (~~~c.flagMask).extractLsb' 0 8, by rw [canonicalBytes_cons]; exact Ne.symm hne,
      by simp only [List.set_cons_zero, List.set_cons_succ, canonicalBytes_cons]⟩
  | 2 | 3 => exact absurd hfield (by decide)
  | j + 4 => exact ⟨x, by rwa [canonicalBytes_cons], by simp only [List.set_cons_succ, canonicalBytes_cons]⟩

/-- Such a byte takes part in the recomputed checksum only, which is sensitive to a change of one byte (R81). -/
theorem checksums_set_canonical {c : Config} {p : List Byte} {k : Nat} {x : Byte} (hl : 4 ≤ p.length) (hlt : k < p.length)
    (hx : p.getD k 0#8 ≠ x) (hfield : ¬ (k = 2 ∨ k = 3))
    (hk : 2 ≤ k ∨ clearFlags c (headerOfBytes (p.set k x)) ≠ clearFlags c (headerOfBytes p)) :
    packetChecksum c (p.set k x) = packetChecksum c p ∧ recomputedChecksum c (p.set k x) ≠ recomputedChecksum c p := by
  constructor
  · simp only [packetChecksum, List.getD_eq_getElem?_getD]
    rw [List.getElem?_set_ne (by omega), List.getElem?_set_ne (by omega)]
  · obtain ⟨y, hy, hset⟩ := canonicalBytes_set hl hx hfield hk
    rw [recomputedChecksum, hset]
    exact checksum_set_ne 0#16 (by rwa [canonicalBytes_length c hl]) hy

/-- Where the checksums matched, exactly one of them changes, so they match no more (R104). -/
theorem checksums_ne_of_set {c : Config} {p : List Byte} {k : Nat} {x : Byte} (hl : 4 ≤ p.length)
    (hmatch : packetChecksum c p = recomputedChecksum c p) (hlt : k < p.length) (hx : p.getD k 0#8 ≠ x)
    (hk : 2 ≤ k ∨ clearFlags c (headerOfBytes (p.set k x)) ≠ clearFlags c (headerOfBytes p)) :
    packetChecksum c (p.set k x) ≠ recomputedChecksum c (p.set k x) := by
  by_cases hfield : k = 2 ∨ k = 3
  · obtain ⟨htransmitted, hrecomputed⟩ := checksums_set_field hl hfield hx
    rwa [hrecomputed, ← hmatch]
  · obtain ⟨htransmitted, hrecomputed⟩ := checksums_set_canonical hl hlt hx hfield hk
    rw [htransmitted, hmatch]
    exact hrecomputed.symm

/-- Taken whole, a packet whose checksums differ ends in ChecksumMismatch with nothing stored or counted (R99, R102). -/
theorem execData_of_mismatch {s : State} {p : List Byte} (hw : s.cfg.wf = true) (ht : s.table = crcTable)
    (hs : s.state = Code.xfer) (hlen : p.length = s.cfg.pktLen) (hne : packetChecksum s.cfg p ≠ recomputedChecksum s.cfg p) :
    ∃ t, execData p s = .next t ∧ t.state = Code.fault ∧ t.err = 2#3 ∧ errExpected t.errinfo ≠ errComputed t.errinfo ∧
      t.cs = false ∧ t.frame = s.frame ∧ t.iter = s.iter := by
  have hcols := ((Config.wf_iff _).1 hw).1
  have hl : 4 ≤ p.length := by omega
  have received : ((s.receive p).classifyAs false).Holds p := s.receive_holds p
  have hmismatch : ((s.receive p).classifyAs false).prepared.rxcrc ≠ ((s.receive p).classifyAs false).prepared.crc := by
    rw [received.prepared_rxcrc hl, received.prepared_crc hl hlen ht]
    exact hne
  refine ⟨_, (execData_of_inFlight hs hlen).trans (execProcess_of_mismatch hmismatch), rfl, rfl, ?record, rfl, rfl, rfl⟩
  case record => rwa [State.raiseChecksum_errinfo, errExpected_pack, errComputed_pack]

/-- Settles O35: a byte outside the header leaves the class of the packet, one of the two checksums changes unless flag bits
are all that does, and PROCESS does not read those. -/
theorem corruptedPacketIsRejected : Obligations.CorruptedPacketIsRejected := by
  intro s p k x hs hw ht hd hp hlt hx
  obtain ⟨⟨hlen, hdata⟩, hmatch, -⟩ := hp
  have hcols := ((Config.wf_iff _).1 hw).1
  have hlen' : (p.set k x).length = s.cfg.pktLen := List.length_set.trans hlen
  refine ⟨fun hmarker => ⟨?header, decode_of_discardPacket ⟨hlen', hmarker⟩⟩, fun hmarker =>
    ⟨decode_of_dataPacket ⟨hlen', hmarker⟩, fun hk => ?rejected, fun hk hflags => ?unchanged⟩⟩
  case header =>
    by_contra hk
    rw [headerOfBytes_set x (by omega), hdata] at hmarker
    cases hmarker
  case rejected =>
    exact execData_of_mismatch hw ht hs hlen' (checksums_ne_of_set (by omega) hmatch hlt hx hk)
  case unchanged =>
    have hdrop : (p.set k x).drop 2 = p.drop 2 := by rw [List.drop_set, if_pos hk]
    have hprocess := execProcess_congr_flags (s := (s.receive p).classifyAs false) hd (by omega) (by omega) hflags hdrop
    exact (execData_of_inFlight hs hlen').trans (hprocess.trans (execData_of_inFlight hs hlen).symm)

end Sys2Proof.Machine
end

section
/-! PROOFS. The payload reassembler: SAMPLE.DECODE and ROW.ADDR, the row that STORE writes, and a second store to the same row. -/

namespace Sys2Proof.Machine

/-! ### Samples and addresses -/

/-- A sample is its two bytes joined, the first the more significant (R43, R105). -/
theorem State.sample_of_reads {s : State} {c : Nat} {b b' : Byte} (h : s.pkt.read (4 + 2 * c) = some b)
    (h' : s.pkt.read (5 + 2 * c) = some b') : s.sample c = joinBytes b b' :=
  congrArg₂ joinBytes (State.pktByte_of_read h) (State.pktByte_of_read h')

theorem execSampleDecode_of_inside {s : State} {c : Nat} (h : c < s.cfg.cols) :
    execSampleDecode c s = .next { s with sampleOut := s.sample c, draws := s.draws + 1 } :=
  if_pos h

/-- Settles O26: the sample that the two bytes make, and the address as it is defined. -/
theorem sampleAndRowAddressResults : Obligations.SampleAndRowAddressResults := by
  refine ⟨fun s c b b' hc hb hb' => ⟨s.draws + 1, ?sample⟩, fun _ _ => rfl⟩
  case sample =>
    have hjoined : s.sample c = b ++ b' := State.sample_of_reads hb hb'
    rw [← hjoined]
    exact execSampleDecode_of_inside hc

/-! ### STORE -/

/-- The samples of a packet that stands in the first bytes of `PKT`, whatever is read above it (R105). -/
theorem State.samples_of_reads {s : State} {p : List Byte} (hl : p.length = 4 + 2 * s.cfg.cols)
    (h : ∀ i, i < p.length → s.pkt.read i = p[i]?) : s.samples = (List.range s.cfg.cols).map (packetSample p) := by
  have hread : ∀ {i}, i < p.length → s.pkt.read i = some (p.getD i 0#8) := fun {i} hi => by
    rw [h i hi, List.getD_eq_getElem?_getD, List.getElem?_eq_getElem hi, Option.getD_some]
  refine List.map_congr_left fun k hk => ?_
  have hk : k < s.cfg.cols := List.mem_range.1 hk
  exact State.sample_of_reads (hread (by omega)) (hread (by omega))

/-- Settles O25: the samples stored are the packet's, and writing a row changes the cells of that row only. -/
theorem storeResult : Obligations.StoreResult := by
  refine ⟨fun _ => rfl, fun s p hw hr hlen h => ?_⟩
  have hl : p.length = 4 + 2 * s.cfg.cols := hlen.trans ((Config.wf_iff _).1 hw).1
  have hsamples := State.samples_of_reads hl (hlen ▸ h)
  refine ⟨_, execStore_of_inRange hr, ?row, ?others, rfl⟩
  case row =>
    intro c hc
    rw [hsamples]
    exact read_storedRow hc
  case others =>
    intro a ha
    rw [hsamples]
    exact read_outside_storedRow ha

/-! ### A second store -/

/-- The last write wins: writes that cover the ones before leave the memory as if those had not happened (R41, R109). -/
theorem Memory.writeFrom_writeFrom {w : Nat} {m : Memory w} (hm : m.wf = true) (a : Nat) {vs vs' : List (BitVec w)}
    (hl : vs.length ≤ vs'.length) : (m.writeFrom a vs).writeFrom a vs' = m.writeFrom a vs' := by
  refine Memory.ext_read (Memory.wf_writeFrom a vs' (Memory.wf_writeFrom a vs hm)) (Memory.wf_writeFrom a vs' hm) fun b => ?_
  rw [Memory.read_writeFrom, Memory.read_writeFrom m vs']
  split
  next => rfl
  next houtside => rw [Memory.read_writeFrom, dif_neg (by omega)]

/-- A row has one sample per column (R60). -/
theorem State.samples_length (s : State) : s.samples.length = s.cfg.cols := by
  rw [State.samples, List.length_map, List.length_range]

/-- Where STORE completes, `SEQ` is a row index and the samples stand in its row (R107, R110). -/
theorem frame_of_execStore {s t : State} (h : execStore s = .next t) :
    s.seq.toNat < s.cfg.rows ∧ t.frame = s.frame.writeFrom (cellAddress s.cfg s.seq.toNat 0) s.samples := by
  by_cases hr : s.seq.toNat < s.cfg.rows
  · cases (execStore_of_inRange hr).symm.trans h
    exact ⟨hr, rfl⟩
  · cases (execStore_of_outside (Nat.not_lt.1 hr)).symm.trans h

/-- Settles O29: the two stores write equally many cells from the same address on, so the second covers the first. -/
theorem secondStoreOverwritesTheRow : Obligations.SecondStoreOverwritesTheRow := by
  intro s u t t' hwf hfirst hcfg hseq hsecond
  obtain ⟨-, ht⟩ := frame_of_execStore hfirst
  obtain ⟨hr, ht'⟩ := frame_of_execStore hsecond
  refine ⟨_, execStore_of_inRange hr, ?frame⟩
  case frame =>
    have hlength : s.samples.length ≤ u.samples.length := by
      rw [State.samples_length, State.samples_length, hcfg]
    rw [ht, ← hcfg, ← hseq] at ht'
    exact ht'.trans (Memory.writeFrom_writeFrom hwf _ hlength)

end Sys2Proof.Machine
end

section
/-! PROOFS. The acquisition loop's own micro-operations, the host's commands and its read port; and that a cancellation commutes
with every working step. -/

namespace Sys2Proof.Machine

/-! ### The outer loop and the waiting states -/

theorem execOpoll_of_complete {s : State} (h : s.iter = s.cfg.nIter) : execOpoll s = .next s.enterDone :=
  congrArg Host.Outcome.next (if_pos h)

theorem execOpoll_of_not_run {s : State} (h : s.iter ≠ s.cfg.nIter) (hr : s.run = false) :
    execOpoll s = .next s.enterCancelled :=
  congrArg Host.Outcome.next ((if_neg h).trans (if_pos hr))

theorem execOpoll_of_run {s : State} (h : s.iter ≠ s.cfg.nIter) (hr : s.run = true) :
    execOpoll s = .next (s.goto Code.ipoll) :=
  congrArg Host.Outcome.next ((if_neg h).trans (if_neg (by simp [hr])))

/-- Settles O37: the count decides first, and the Running Flag where the count does not. -/
theorem outerLoopResults : Obligations.OuterLoopResults := by
  refine ⟨fun _ => ⟨rfl, rfl⟩, fun s => ⟨?opoll, rfl⟩⟩
  case opoll =>
    split_ifs with hcount hrun
    · exact execOpoll_of_complete hcount
    · exact execOpoll_of_not_run hcount hrun
    · exact execOpoll_of_run hcount (by simpa using hrun)

/-- Settles O38: each of the five answers the state it was given. -/
theorem waitingAndTerminalStatesHaveNoEffect : Obligations.WaitingAndTerminalStatesHaveNoEffect :=
  fun _ => ⟨rfl, rfl, rfl, rfl, rfl⟩

/-! ### The host's commands and its read port -/

/-- SELECT is accepted in IDLE (R115). -/
theorem execSelect_of_idle {s : State} (h : s.state = Code.idle) :
    execSelect s = .next { s with cs := true, state := Code.selected } :=
  congrArg Host.Outcome.next (if_pos h)

/-- START is accepted in SELECTED (R116). -/
theorem execStart_of_selected {s : State} (h : s.state = Code.selected) :
    execStart s = .next { s with iter := 0, state := Code.opoll } :=
  congrArg Host.Outcome.next (if_pos h)

/-- A command that the state does not accept changes nothing (R126). -/
theorem execSelect_of_ne {s : State} (h : s.state ≠ Code.idle) : execSelect s = .next s :=
  congrArg Host.Outcome.next (if_neg h)

theorem execStart_of_ne {s : State} (h : s.state ≠ Code.selected) : execStart s = .next s :=
  congrArg Host.Outcome.next (if_neg h)

/-- Settles O44: the two commands by whether the state accepts them; the other two have no effect. -/
theorem hostCommandResults : Obligations.HostCommandResults := by
  refine ⟨fun _ => ⟨rfl, rfl, rfl, rfl⟩, fun s => ⟨?select, ?start, rfl, rfl⟩⟩
  case select =>
    split
    · exact execSelect_of_idle ‹_›
    · exact execSelect_of_ne ‹_›
  case start =>
    split
    · exact execStart_of_selected ‹_›
    · exact execStart_of_ne ‹_›

/-- While the loop owns the frame a read is refused (R125). -/
theorem execFrameRead_of_busy {s : State} (h : s.busy = true) (a : BitVec 13) :
    execFrameRead a s = .refused .frameBusy :=
  if_pos h

theorem execFrameRead_of_outside {s : State} {a : BitVec 13} (h : ¬ s.busy = true) (ha : frameCells s.cfg ≤ a.toNat) :
    execFrameRead a s = .refused (.frameReadAddress a.toNat) :=
  (if_neg h).trans (if_pos ha)

/-- A cell that holds a value is read as that value (R125). -/
theorem execFrameRead_of_some {s : State} {a : BitVec 13} {v : Half} (h : ¬ s.busy = true)
    (ha : a.toNat < frameCells s.cfg) (hv : s.frame.read a.toNat = some v) :
    execFrameRead a s = .next { s with readData := v } := by
  rw [execFrameRead, if_neg h, if_neg (Nat.not_le.2 ha), hv]

/-- A cell that holds no value is read as a free one (R29; log entry 4). -/
theorem execFrameRead_of_none {s : State} {a : BitVec 13} (h : ¬ s.busy = true) (ha : a.toNat < frameCells s.cfg)
    (hv : s.frame.read a.toNat = none) :
    execFrameRead a s = .next { s with readData := Config.freeCell s.draws a.toNat, draws := s.draws + 1 } := by
  rw [execFrameRead, if_neg h, if_neg (Nat.not_le.2 ha), hv]

/-- Settles O47: the two refusals in their order, and then the cell with a value and the cell without one. -/
theorem frameReadResult : Obligations.FrameReadResult := by
  intro s a
  refine ⟨fun h2 h13 => execFrameRead_of_busy (s.busy_iff.2 ⟨h2, h13⟩) a, fun hidle => ?_⟩
  have hfree : ¬ s.busy = true := mt s.busy_iff.1 hidle
  exact ⟨execFrameRead_of_outside hfree, fun ha =>
    ⟨fun _ => execFrameRead_of_some hfree ha, fun hv => ⟨_, _, execFrameRead_of_none hfree ha hv⟩⟩⟩

/-! ### Cancellation and the working steps -/

/-- An operation that neither reads nor writes `RUN`: a cancellation before it does what one after it does (R138). -/
def IgnoresRun (f : State → Result) : Prop := ∀ s : State, f { s with run := false } = andThen (f s) execCancel

namespace IgnoresRun

variable {f g : State → Result}

theorem sequence (hf : IgnoresRun f) (hg : IgnoresRun g) : IgnoresRun fun s => andThen (f s) g := by
  intro s
  show andThen (f { s with run := false }) g = andThen (andThen (f s) g) execCancel
  rw [hf s]
  cases f s with
  | next t => exact hg t
  | fault e => rfl
  | refused e => rfl

theorem guarded (hf : IgnoresRun f) (code : BitVec 5) : IgnoresRun (whenAt code f) := by
  intro s
  by_cases h : s.state = code
  · rw [whenAt_of_eq h, ← hf s]
    exact if_pos h
  · rw [whenAt_of_ne h]
    exact if_neg h

end IgnoresRun

/-- XFER serves each kind of answer without a look at the flag (R87, R88). -/
theorem execXfer_ignoresRun : IgnoresRun execXfer := by
  intro s
  rcases ha : s.answers with _ | ⟨⟨b⟩ | ⟨c⟩, rest⟩
  case nil =>
    rw [execXfer_of_unanswered ha]
    exact execXfer_of_unanswered ha
  case cons.ok =>
    have cancelled := execXfer_of_ok (s := { s with run := false }) ha
    by_cases hl : b.length = s.cfg.pktLen
    · rw [execXfer_of_ok ha, if_pos hl]
      exact cancelled.trans (if_pos hl)
    · rw [execXfer_of_ok ha, if_neg hl]
      exact cancelled.trans (if_neg hl)
  case cons.err =>
    rw [execXfer_of_err ha]
    exact execXfer_of_err ha

/-- CLASSIFY goes by the packet in `PKT` alone (R89). -/
theorem execClassify_ignoresRun : IgnoresRun execClassify := by
  intro s
  show Host.Outcome.next (State.classifyAs { s with run := false } s.isDiscard) =
    .next { s.classifyAs s.isDiscard with run := false }
  cases s.isDiscard <;> rfl

theorem execCompare_ignoresRun : IgnoresRun execCompare := by
  intro s
  by_cases h : s.rxcrc = s.crc
  · rw [execCompare_of_match h]
    exact execCompare_of_match h
  · rw [execCompare_of_mismatch h]
    exact execCompare_of_mismatch h

theorem execSeqchk_ignoresRun : IgnoresRun execSeqchk := by
  intro s
  by_cases h : s.seq.toNat < s.cfg.rows
  · rw [execSeqchk_of_inRange h]
    exact execSeqchk_of_inRange h
  · rw [execSeqchk_of_outside h]
    exact execSeqchk_of_outside h

theorem execStore_ignoresRun : IgnoresRun execStore := by
  intro s
  by_cases h : s.seq.toNat < s.cfg.rows
  · rw [execStore_of_inRange h]
    exact execStore_of_inRange h
  · rw [execStore_of_outside (Nat.not_lt.1 h)]
    exact execStore_of_outside (Nat.not_lt.1 h)

theorem execSeqx_ignoresRun : IgnoresRun execSeqx := fun _ => rfl

theorem execCrcx_ignoresRun : IgnoresRun execCrcx := fun _ => rfl

theorem execCanon_ignoresRun : IgnoresRun execCanon := fun _ => rfl

theorem execCrcrun_ignoresRun : IgnoresRun execCrcrun := fun _ => rfl

theorem execNext_ignoresRun : IgnoresRun execNext := fun _ => rfl

/-- PROCESS is made of operations that ignore the flag (R94). -/
theorem execProcess_ignoresRun : IgnoresRun execProcess :=
  have stored := (execStore_ignoresRun.sequence execNext_ignoresRun).guarded Code.store
  have checked := (execSeqchk_ignoresRun.sequence stored).guarded Code.seqchk
  execSeqx_ignoresRun.sequence <| execCrcx_ignoresRun.sequence <| execCanon_ignoresRun.sequence <|
    execCrcrun_ignoresRun.sequence <| execCompare_ignoresRun.sequence checked

/-- Settles O59: each of the operations ignores the flag that a cancellation clears. -/
theorem cancellationCommutesWithWorkingSteps : Obligations.CancellationCommutesWithWorkingSteps := by
  intro s
  suffices h : ∀ i ∈ [.xfer, .classify, .seqx, .crcx, .canon, .crcrun, .compare, .seqchk, .store, .next, .process],
      IgnoresRun (exec i) from fun i hi => h i hi s
  simp only [List.forall_mem_cons]
  exact ⟨execXfer_ignoresRun, execClassify_ignoresRun, execSeqx_ignoresRun, execCrcx_ignoresRun, execCanon_ignoresRun,
    execCrcrun_ignoresRun, execCompare_ignoresRun, execSeqchk_ignoresRun, execStore_ignoresRun, execNext_ignoresRun,
    execProcess_ignoresRun, nofun⟩

end Sys2Proof.Machine
end

section
/-! PROOFS. Steps over the whole machine: what a step from a terminal state can change, what a step into FAULT has done, and
where the block cannot stop. -/

namespace Sys2Proof.Machine

/-! ### Terminal states -/

/-- No move leaves a terminal state (R113, R114). -/
theorem Move.eq_of_terminal {s t : State} (m : Move s t) (hs : 14 ≤ s.state.toNat) : t = s := by
  have not_working {code : BitVec 5} (h : s.state = code) (hc : code.toNat ≤ 13) : False := by
    subst h
    omega
  cases m with
  | rest _ => rfl
  | cancelled h _ => rcases h with ⟨h, -⟩ | h <;> exact (not_working h (by decide)).elim
  | _ => exact (not_working ‹_› (by decide)).elim

/-- What an input other than a reset changes in a terminal state: `RUN`, the accumulator of an engine used alone, and what a
read presents (R123, R125, R126). -/
theorem Input.frame_of_terminal {w : InstrWord} {s t : State} (i : Input w s t) (hs : 14 ≤ s.state.toNat)
    (hw : w ≠ .rst 1#1) : t = { s with run := t.run, crc := t.crc, readData := t.readData, draws := t.draws } := by
  cases i with
  | select _ h | start _ h => exact absurd hs (by rw [h]; decide)
  | reset _ => exact absurd rfl hw
  | _ => rfl

/-- Settles O55: no packet is taken there, no move leaves the state, and no input but a reset reaches the outcome. -/
theorem terminalStatesAreAbsorbing : Obligations.TerminalStatesAreAbsorbing := by
  intro s t hterminal hreset h
  have hs : 14 ≤ s.served.state.toNat := by
    rcases hterminal with h | h | h <;> exact (congrArg BitVec.toNat h).symm ▸ (by decide)
  have frame : t = { s.served with run := t.run, crc := t.crc, readData := t.readData, draws := t.draws } := by
    obtain ⟨-, ⟨-, m⟩ | ⟨⟨p, hf⟩, -⟩ | i⟩ := step_moves h
    · rw [m.eq_of_terminal hs]
    · obtain ⟨hx, -⟩ := State.fetch_packet hf
      exact absurd hs (by rw [show s.served.state = _ from hx]; decide)
    · exact i.frame_of_terminal hs hreset
  rw [frame]
  exact ⟨rfl, rfl, rfl, rfl, rfl, rfl, rfl, rfl, rfl, rfl, rfl, rfl⟩

/-! ### Fault entry -/

/-- A fault entry: the class and the deasserted line, with nothing stored, counted or cancelled (R121, R141, R142). -/
structure EntersFault (s t : State) : Prop where
  state : t.state = Code.fault
  err : t.err = 1#3 ∨ t.err = 2#3 ∨ t.err = 3#3
  cs : t.cs = false
  frame : t.frame = s.frame
  iter : t.iter = s.iter
  run : t.run = s.run

/-- Three moves enter FAULT: a failed transfer, a mismatch and a sequence number out of range (R132). -/
theorem Move.entersFault {s t : State} (m : Move s t) (hs : s.state ≠ Code.fault) (ht : t.state = Code.fault) :
    EntersFault s t ∧ (s.state = Code.xfer ∨ s.state = Code.compare ∨ s.state = Code.seqchk) := by
  cases m with
  | rest _ => exact absurd ht hs
  | transportFault h _ => exact ⟨⟨rfl, .inl rfl, rfl, rfl, rfl, rfl⟩, .inl h⟩
  | checksumFault h _ => exact ⟨⟨rfl, .inr (.inl rfl), rfl, rfl, rfl, rfl⟩, .inr (.inl h)⟩
  | seqRangeFault h _ => exact ⟨⟨rfl, .inr (.inr rfl), rfl, rfl, rfl, rfl⟩, .inr (.inr h)⟩
  | classify _ =>
    rw [State.classifyAs_state] at ht
    split at ht <;> exact absurd ht (by decide)
  | _ => exact absurd ht (by simp; decide)

/-- No input enters FAULT. -/
theorem Input.state_ne_fault {w : InstrWord} {s t : State} (i : Input w s t) (hs : s.state ≠ Code.fault) :
    t.state ≠ Code.fault := by
  cases i with
  | select _ _ | start _ _ | reset _ => simp; decide
  | _ => exact hs

/-- A packet counted: `ITER` advanced, and control back in OPOLL (R118). -/
structure CountsPacket (s t : State) : Prop where
  state : t.state = Code.opoll
  iter : t.iter = s.iter + 1
  err : t.err = s.err
  run : t.run = s.run
  cfg : t.cfg = s.cfg

/-- PROCESS counts the packet or enters FAULT (R94, R139). -/
theorem execProcess_cases (s : State) : ∃ t, execProcess s = .next t ∧ (CountsPacket s t ∨ EntersFault s t) := by
  rw [execProcess_eq]
  split_ifs
  · exact ⟨_, rfl, .inl ⟨rfl, rfl, rfl, rfl, rfl⟩⟩
  · exact ⟨_, rfl, .inr ⟨rfl, .inr (.inr rfl), rfl, rfl, rfl, rfl⟩⟩
  · exact ⟨_, rfl, .inr ⟨rfl, .inr (.inl rfl), rfl, rfl, rfl, rfl⟩⟩

/-- A packet decodes to one of the two classes (R61 to R63). -/
theorem eq_of_decode_packet {c : Config} {p : List Byte} {i : Instr} (h : decode c (.packet p) = .ok i) :
    p.length = c.pktLen ∧ (i = .discard p ∨ i = .data p) := by
  simp only [decode, decodePacket] at h
  split at h
  · cases hm : carriesMarker c (headerOfBytes p) <;> simp only [hm, Except.ok.injEq] at h
    · exact ⟨‹_›, .inr h.symm⟩
    · exact ⟨‹_›, .inl h.symm⟩
  · exact nomatch h

/-- Taken whole, a packet leads to FAULT only through PROCESS (R62, R63). -/
theorem entersFault_of_packet {s t : State} {p : List Byte} (h : step s = .next t) (hf : s.fetch = .packet p)
    (ht : t.state = Code.fault) : EntersFault s t := by
  obtain ⟨-, i, hd, he⟩ := step_eq_next.1 h
  obtain ⟨hs, -⟩ := State.fetch_packet hf
  obtain ⟨hl, rfl | rfl⟩ := eq_of_decode_packet (hf ▸ hd)
  · cases (execDiscard_of_inFlight (s := s.consume) hs hl).symm.trans he
    exact absurd ht (show Code.ipoll ≠ Code.fault by decide)
  · obtain ⟨u, hu, hcases⟩ := execProcess_cases ((s.consume.receive p).classifyAs false)
    cases hu.symm.trans ((execData_of_inFlight (s := s.consume) hs hl).symm.trans he)
    rcases hcases with counted | e
    · exact absurd (counted.state.symm.trans ht) (by decide)
    · exact ⟨e.state, e.err, e.cs, e.frame, e.iter, e.run⟩

/-- Settles O58: a step into FAULT is one of the three moves, or a packet taken whole whose PROCESS ends there. -/
theorem faultEntryIsPrecise : Obligations.FaultEntryIsPrecise := by
  intro s t h hs ht
  have entry : EntersFault s t ∧ (s.fetch = .seq Code.xfer ∨ s.fetch = .seq Code.compare ∨ s.fetch = .seq Code.seqchk ∨
      ∃ p, s.fetch = .packet p) := by
    obtain ⟨-, ⟨hf, m⟩ | ⟨⟨p, hf⟩, -⟩ | i⟩ := step_moves h
    · obtain ⟨e, hstate⟩ := m.entersFault hs ht
      refine ⟨⟨e.state, e.err, e.cs, e.frame, e.iter, e.run⟩, ?_⟩
      rw [hf]
      rcases hstate with h | h | h
      · exact .inl (congrArg InstrWord.seq h)
      · exact .inr (.inl (congrArg InstrWord.seq h))
      · exact .inr (.inr (.inl (congrArg InstrWord.seq h)))
    · exact ⟨entersFault_of_packet h hf ht, .inr (.inr (.inr ⟨p, hf⟩))⟩
    · exact absurd ht (i.state_ne_fault hs)
  exact ⟨entry.1.err, entry.1.cs, entry.1.frame, entry.1.iter, entry.1.run, entry.2⟩

/-! ### Where the block cannot stop -/

/-- What is left of an admitted stream is admitted (R87). -/
theorem State.BusAdmitted.of_rest {s t : State} {a : Answer} {rest : List Answer} (h : s.BusAdmitted)
    (ha : s.answers = a :: rest) (hbus : t.bus = rest) (hloop : t.busLoop = s.busLoop) (hcfg : t.cfg = s.cfg) :
    t.BusAdmitted := by
  intro b hb
  rw [hbus, hloop] at hb
  exact hcfg ▸ h b (State.mem_stream_of_mem_rest ha hb)

theorem State.BusAdmitted.of_eq {s t : State} (h : s.BusAdmitted) (hbus : t.bus = s.bus) (hloop : t.busLoop = s.busLoop)
    (hcfg : t.cfg = s.cfg) : t.BusAdmitted := by
  intro b hb
  rw [hbus, hloop] at hb
  exact hcfg ▸ h b hb

theorem State.BusAdmitted.move {s t : State} (h : s.BusAdmitted) (m : Move s t) : t.BusAdmitted := by
  cases m with
  | receive _ ha _ | transportFault _ ha => exact h.of_rest ha rfl rfl rfl
  | classify _ => exact h.of_eq (by simp) (by simp) (by simp)
  | _ => exact h.of_eq rfl rfl rfl

/-- A reset drops the answer of the transfer in flight, and no input writes the stream otherwise (R155). -/
theorem State.BusAdmitted.input {w : InstrWord} {s t : State} (h : s.BusAdmitted) (i : Input w s t) : t.BusAdmitted := by
  cases i with
  | reset _ =>
    intro b hb
    rw [State.afterReset_bus, State.afterReset_busLoop, List.mem_append] at hb
    refine h b ?_
    rcases hb with hb | hb
    · split at hb
      · exact State.mem_of_mem_answers (List.mem_of_mem_tail hb)
      · exact List.mem_append_left _ hb
    · exact List.mem_append_right _ hb
  | _ => exact h.of_eq rfl rfl rfl

/-- Every step leaves an admitted stream admitted. -/
theorem State.BusAdmitted.step {s t : State} (h : s.BusAdmitted) (hstep : step s = .next t) : t.BusAdmitted :=
  step_keeps (fun _ _ h => h) (fun _ _ _ h => h.move) (fun _ _ _ _ h => h.input) h hstep

/-- XFER completes on every answer that has `PKT_LEN` bytes, and where none comes (R87, R88). -/
theorem execXfer_completes {s : State} (h : s.BusAdmitted) : ∃ t, execXfer s = .next t := by
  rcases ha : s.answers with _ | ⟨⟨b⟩ | ⟨c⟩, rest⟩
  case nil => exact ⟨_, execXfer_of_unanswered ha⟩
  case cons.ok =>
    have hl : b.length = s.cfg.pktLen := h b (State.mem_of_mem_answers (ha ▸ List.mem_cons_self))
    exact ⟨_, (execXfer_of_ok ha).trans (if_pos hl)⟩
  case cons.err => exact ⟨_, execXfer_of_err ha⟩

/-- Of the micro-operations only XFER and STORE can stop: the one at an answer that is not admitted, the other outside the
frame (D26, R41). -/
theorem exec_completes_of_decodeState {s : State} {i : Instr} (hd : decodeState s.state = .ok i) (hb : s.BusAdmitted)
    (hr : s.state = Code.store → s.seq.toNat < s.cfg.rows) : ∃ t, exec i s = .next t := by
  have hs := encode_of_decodeState hd
  cases i <;> simp only [encode, Option.some.injEq, InstrWord.seq.injEq, reduceCtorEq] at hs
  case xfer => exact execXfer_completes hb
  case store => exact ⟨_, execStore_of_inRange (hr hs.symm)⟩
  all_goals exact ⟨_, rfl⟩

/-- A packet of `PKT_LEN` bytes taken whole always completes (R62, R63). -/
theorem exec_completes_of_packet {s : State} {p : List Byte} (hs : s.state = Code.xfer) (hl : p.length = s.cfg.pktLen) :
    ∃ i t, decode s.cfg (.packet p) = .ok i ∧ exec i s = .next t := by
  cases hm : carriesMarker s.cfg (headerOfBytes p) with
  | true => exact ⟨_, _, decode_of_discardPacket ⟨hl, hm⟩, execDiscard_of_inFlight hs hl⟩
  | false =>
    obtain ⟨t, ht⟩ := execProcess_next ((s.receive p).classifyAs false)
    exact ⟨_, t, decode_of_dataPacket ⟨hl, hm⟩, (execData_of_inFlight hs hl).trans ht⟩

theorem exec_completes_of_cmd (c : BitVec 2) (s : State) : ∃ t, exec (decodeCmd c) s = .next t := by
  unfold decodeCmd
  split <;> exact ⟨_, rfl⟩

/-- Outside the loop, a read of a cell of the frame always completes (R125). -/
theorem execFrameRead_completes {s : State} {a : BitVec 13} (h : ¬ s.busy = true) (ha : a.toNat < frameCells s.cfg) :
    ∃ t, execFrameRead a s = .next t := by
  cases hv : s.frame.read a.toNat with
  | some v => exact ⟨_, execFrameRead_of_some h ha hv⟩
  | none => exact ⟨_, execFrameRead_of_none h ha hv⟩

/-- A line that is fetched is at 1 (R69). -/
theorem State.fetch_line {s : State} {l : BitVec 1} (h : s.fetch = .cancel l ∨ s.fetch = .rst l) : l = 1#1 := by
  unfold State.fetch at h
  repeat' split at h
  all_goals simp_all

/-- Where the answers are admitted, the packet passed SEQCHK before STORE, and a read is one that R125 admits, every word
fetched but an engine's decodes to an operation that completes. -/
theorem fetched_completes {s : State} (h16 : s.state.toNat ≤ 16) (hb : s.BusAdmitted)
    (hr : s.state = Code.store → s.seq.toNat < s.cfg.rows) (hengine : ∀ e b v, s.fetch ≠ .engine e b v)
    (hread : ∀ a, s.fetch = .frameAddr a → ¬ s.busy = true ∧ a.toNat < frameCells s.cfg) :
    ∃ i t, decode s.cfg s.fetch = .ok i ∧ exec i s.consume = .next t := by
  have admitted : (∀ p, s.fetch ≠ .packet p) → s.consume.BusAdmitted := fun hp =>
    hb.of_eq (s.consume_bus_of_not_packet hp) rfl rfl
  cases hf : s.fetch with
  | seq code =>
    obtain rfl := State.fetch_seq hf
    obtain ⟨i, hd⟩ : ∃ i, decodeState s.state = .ok i := by
      have hok := (decodeState_isOk s.state).trans (decide_eq_true h16)
      cases hd : decodeState s.state with
      | ok i => exact ⟨i, rfl⟩
      | error r => rw [hd] at hok; cases hok
    obtain ⟨t, ht⟩ := exec_completes_of_decodeState (s := s.consume) hd (admitted (by simp [hf])) hr
    exact ⟨i, t, hd, ht⟩
  | packet p =>
    obtain ⟨hs, rest, ha⟩ := State.fetch_packet hf
    exact exec_completes_of_packet (s := s.consume) hs (hb p (State.mem_of_mem_answers (ha ▸ List.mem_cons_self)))
  | cmd c =>
    obtain ⟨t, ht⟩ := exec_completes_of_cmd c s.consume
    exact ⟨_, t, rfl, ht⟩
  | cancel line =>
    obtain rfl := State.fetch_line (.inl hf)
    exact ⟨.cancel, _, rfl, rfl⟩
  | rst line =>
    obtain rfl := State.fetch_line (.inr hf)
    exact ⟨.reset, _, rfl, rfl⟩
  | frameAddr a =>
    obtain ⟨hbusy, ha⟩ := hread a hf
    obtain ⟨t, ht⟩ := execFrameRead_completes (s := s.consume) hbusy ha
    exact ⟨_, t, rfl, ht⟩
  | engine e b v => exact absurd hf (hengine e b v)

/-- Settles O54: the codes are legal, so the block takes a step; what it fetches completes; and no step spoils the stream. -/
theorem blockStopsOnlyWhereTheSpecRefuses : Obligations.BlockStopsOnlyWhereTheSpecRefuses := by
  intro s hc hm hb hengine hread
  have hstop : s.stop = none :=
    State.stop_eq_none.2 ⟨hc.config, hc.stateCode, hc.errCode, fun ⟨e, b, v, hf⟩ => absurd hf (hengine e b v)⟩
  have inRange : s.state = Code.store → s.seq.toNat < s.cfg.rows := fun hs =>
    hm.inRange (by rw [hs]; decide) (by rw [hs]; decide)
  obtain ⟨i, t, hd, ht⟩ := fetched_completes hc.stateCode hb inRange hengine fun a ha =>
    (hread a ha).imp_left (mt s.busy_iff.1)
  have hstep : step s = .next t := step_eq_next.2 ⟨hstop, i, hd, ht⟩
  exact ⟨t, hstep, hb.step hstep⟩

end Sys2Proof.Machine
end

section
/-! PROOFS. Coarse operations as runs of fine ones: a packet taken whole as a run of a known length, and CAPTURE as a run after
the host's two commands. -/

namespace Sys2Proof.Machine

open Relation (ReflTransGen)

/-! ### Runs of a known length -/

/-- A run that ends in a next state took its first step to one. -/
theorem step_of_core_run_succ {s t : State} {n : Nat} (h : Host.Core.run Sys2Proof.core (n + 1) s = .next t) :
    ∃ u, step s = .next u ∧ Host.Core.run Sys2Proof.core n u = .next t := by
  cases hs : Sys2Proof.core.step s with
  | next u => exact ⟨u, hs, (core_run_succ hs n).symm.trans h⟩
  | fault e => simp [Host.Core.run, hs] at h
  | refused e => simp [Host.Core.run, hs] at h

/-- A run in two parts. -/
theorem core_run_add {s t : State} {n : Nat} (h : Host.Core.run Sys2Proof.core n s = .next t) (k : Nat) :
    Host.Core.run Sys2Proof.core (n + k) s = Host.Core.run Sys2Proof.core k t := by
  induction n generalizing s with
  | zero =>
    cases h
    rw [Nat.zero_add]
  | succ n ih =>
    obtain ⟨u, hs, h⟩ := step_of_core_run_succ h
    rw [Nat.add_right_comm, core_run_succ hs, ih h]

/-- `n` steps of the sequencer with quiet inputs lead from `s` to `t`. -/
structure RunsTo (s : State) (n : Nat) (t : State) : Prop where
  run : Host.Core.run Sys2Proof.core n s = .next t
  quiet : t.Quiet

namespace RunsTo

variable {s t u : State} {n : Nat}

theorem refl (q : s.Quiet) : RunsTo s 0 s := ⟨rfl, q⟩

theorem tail (h : RunsTo s n t) (m : Move t u) : RunsTo s (n + 1) u :=
  ⟨(core_run_add h.run 1).trans (m.run_succ h.quiet 0), h.quiet.move m⟩

/-- FAULT once reached is kept for any number of steps (R121). -/
theorem stay (h : RunsTo s n t) (ht : t.state = Code.fault) (k : Nat) : RunsTo s (n + k) t :=
  have m : Move t t := .rest (.inr (.inl (by rw [ht]; decide)))
  ⟨(core_run_add h.run k).trans (core_run_of_rest (m.step_eq h.quiet) k), h.quiet⟩

/-- PROCESS is eight steps, or fewer and then the rest of the eight in FAULT (R94). -/
theorem process (h : RunsTo s n t) (hs : t.state = Code.seqx) (hp : execProcess t = .next u) : RunsTo s (n + 8) u := by
  have prepared : RunsTo s (n + 4) t.prepared :=
    (((h.tail (.seqx hs)).tail (.crcx rfl)).tail (.canon rfl)).tail (.crcrun rfl)
  rw [execProcess_eq] at hp
  split_ifs at hp with hm hr <;> cases hp
  · exact (((prepared.tail (.crcMatches rfl hm)).tail (.seqInRange rfl hr)).tail (.store rfl hr)).tail (.next rfl)
  · exact ((prepared.tail (.crcMatches rfl hm)).tail (.seqRangeFault rfl hr)).stay rfl 2
  · exact (prepared.tail (.checksumFault rfl hm)).stay rfl 3

/-- Reception and classification are two steps (R87, R89). -/
theorem classified {p : List Byte} {rest : List Answer} (h : RunsTo s n t) (hs : t.state = Code.xfer)
    (ha : t.answers = .ok p :: rest) (hl : p.length = t.cfg.pktLen) :
    RunsTo s (n + 2) (({ t with bus := rest }.receive p).classifyAs (carriesMarker t.cfg (headerOfBytes p))) := by
  have received := h.tail (.receive hs ha hl)
  have marker : ({ t with bus := rest }.receive p).isDiscard = carriesMarker t.cfg (headerOfBytes p) := by
    rw [State.isDiscard, State.header_of_pkt (two_le_of_length h.quiet.config hl) rfl]
    rfl
  exact marker ▸ received.tail (.classify rfl)

end RunsTo

/-! ### Packets taken whole -/

/-- A step under `take` performs the operation that the answer of the transfer in flight decodes to (R127; log entry 9). -/
theorem step_of_take {s : State} {p : List Byte} {rest : List Answer} {i : Instr} (q : s.Quiet) (hs : s.state = Code.xfer)
    (ha : s.answers = .ok p :: rest) (hd : decode s.cfg (.packet p) = .ok i) :
    step { s with ports := [.take] } = exec i { s with bus := rest } := by
  have hf : State.fetch { s with ports := [.take] } = .packet p := State.fetch_of_take rfl hs ha
  have hstop : State.stop { s with ports := [.take] } = none :=
    State.stop_eq_none.2 ⟨q.config, q.stateCode, q.errCode, fun ⟨_, _, _, h⟩ => nomatch hf.symm.trans h⟩
  have consumed : State.consume { s with ports := [.take] } = { s with bus := rest } := by
    rw [State.consume_of_packet hf, show State.answers { s with ports := [.take] } = _ from ha, ← q.ports]
    rfl
  rw [step_of_decode hstop (hf ▸ hd), consumed]

/-- Settles O41: two steps receive and classify the packet, and PROCESS on a DATA packet is the other eight. -/
theorem fusedPacketIsARunOfMicroOperations : Obligations.FusedPacketIsARunOfMicroOperations := by
  intro s p rest hw he hs hports ha
  have q : s.Quiet := ⟨hw, by rw [hs]; decide, he, hports⟩
  refine ⟨fun hp => ?data, fun hp => ?discard⟩
  case data =>
    have received := (RunsTo.refl q).classified hs ha hp.1
    rw [hp.2] at received
    obtain ⟨t, ht⟩ := execProcess_next (({ s with bus := rest }.receive p).classifyAs false)
    have taken : step { s with ports := [.take] } = .next t :=
      (step_of_take q hs ha (decode_of_dataPacket hp)).trans <|
        (execData_of_inFlight (s := { s with bus := rest }) hs hp.1).trans ht
    exact ⟨taken.trans (received.process rfl ht).run.symm, t, taken⟩
  case discard =>
    have received := (RunsTo.refl q).classified hs ha hp.1
    rw [hp.2] at received
    have taken := (step_of_take q hs ha (decode_of_discardPacket hp)).trans
      (execDiscard_of_inFlight (s := { s with bus := rest }) hs hp.1)
    exact ⟨taken.trans received.run.symm, _, taken⟩

/-! ### CAPTURE -/

/-- The state after START, with the line at `line` (R116). -/
def State.started (s : State) (line : Bool) : State := { s with cs := line, iter := 0, state := Code.opoll }

/-- In IDLE, CAPTURE performs SELECT, START and the outer loop (R112). -/
theorem execCapture_of_idle {s : State} (h : s.state = Code.idle) :
    execCapture s = captureLoop (s.cfg.nIter + 1) (s.started true) := by
  rw [execCapture, if_pos (.inl h), execSelect_of_idle h, andThen_next, execStart_of_selected rfl]
  rfl

/-- In SELECTED, CAPTURE performs START and the outer loop. -/
theorem execCapture_of_selected {s : State} (h : s.state = Code.selected) :
    execCapture s = captureLoop (s.cfg.nIter + 1) (s.started s.cs) := by
  rw [execCapture, if_pos (.inr h), execSelect_of_ne (by rw [h]; decide), andThen_next, execStart_of_selected h]
  rfl

/-- One turn of the outer loop from OPOLL is a run of moves, wherever it ends early (R112). -/
theorem moves_of_captureRound {s t : State} (hs : s.state = Code.opoll) (h : captureRound s = .next t) :
    ReflTransGen Move s t := by
  obtain ⟨u, hpoll, h⟩ := andThen_eq_next.1 h
  have polled := ReflTransGen.single (move_of_execOpoll hs hpoll)
  obtain ⟨hu, h⟩ | ⟨-, rfl⟩ := whenAt_eq_next.1 h
  case inr => exact polled
  obtain ⟨v, hsync, h⟩ := andThen_eq_next.1 h
  have synced := polled.trans (moves_of_syncLoop hu hsync)
  obtain ⟨hv, h⟩ | ⟨-, rfl⟩ := whenAt_eq_next.1 h
  case inr => exact synced
  exact synced.trans (moves_of_execProcess hv h)

theorem moves_of_captureLoop {n : Nat} {s t : State} (hs : s.state = Code.opoll) (h : captureLoop n s = .next t) :
    ReflTransGen Move s t := by
  induction n generalizing s with
  | zero =>
    cases h
    exact .refl
  | succ k ih =>
    obtain ⟨u, hround, h⟩ := andThen_eq_next.1 h
    have turned := moves_of_captureRound hs hround
    obtain ⟨hu, h⟩ | ⟨-, rfl⟩ := whenAt_eq_next.1 h
    · exact turned.trans (ih hu h)
    · exact turned

/-- From IDLE, two steps serve SELECT and START (R115, R116; log entry 7). -/
theorem core_run_select_start {s : State} (q : s.Quiet) (hs : s.state = Code.idle) (k : Nat) :
    Host.Core.run Sys2Proof.core (k + 2) { s with ports := [.cmd 0b01#2, .cmd 0b10#2] } =
      Host.Core.run Sys2Proof.core k (s.started true) := by
  have select : step { s with ports := [.cmd 0b01#2, .cmd 0b10#2] } =
      .next { s with ports := [.cmd 0b10#2], cs := true, state := Code.selected } :=
    (step_of_cmd (s := { s with ports := [.cmd 0b01#2, .cmd 0b10#2] }) q.config q.stateCode q.errCode rfl).trans
      (execSelect_of_idle hs)
  have start : step { s with ports := [.cmd 0b10#2], cs := true, state := Code.selected } =
      .next { s.started true with ports := [] } :=
    (step_of_cmd (s := { s with ports := [.cmd 0b10#2], cs := true, state := Code.selected }) q.config
      (show Code.selected.toNat ≤ 16 by decide) q.errCode rfl).trans (execStart_of_selected rfl)
  have ports : ({ s.started true with ports := [] } : State) = s.started true := by
    rw [← q.ports]
    rfl
  rw [core_run_succ select, core_run_succ start, ports]

/-- Settles O43: after the two commands CAPTURE is the outer loop, which is a run of moves. -/
theorem captureIsARunAfterSelectAndStart : Obligations.CaptureIsARunAfterSelectAndStart := by
  intro s t hw he hports hs h
  have q : s.Quiet := ⟨hw, by rw [hs]; decide, he, hports⟩
  have started : (s.started true).Quiet := ⟨hw, show Code.opoll.toNat ≤ 16 by decide, he, hports⟩
  have loop : captureLoop (s.cfg.nIter + 1) (s.started true) = .next t := (execCapture_of_idle hs).symm.trans h
  obtain ⟨n, hn⟩ := exists_run_of_moves started (moves_of_captureLoop rfl loop)
  exact ⟨n + 2, (core_run_select_start q hs n).trans hn⟩

end Sys2Proof.Machine
end

section
/-! PROOFS. CAPTURE: the ways one turn of the outer loop ends, the outcomes of a capture, and the frame that a stream of accepted
packets leaves. -/

namespace Sys2Proof.Machine

/-! ### One turn of the outer loop -/

/-- A turn of the outer loop that leaves control elsewhere than in OPOLL is the last. -/
theorem captureLoop_of_round {s t : State} (h : captureRound s = .next t) (ht : t.state ≠ Code.opoll) (k : Nat) :
    captureLoop (k + 1) s = .next t := by
  rw [captureLoop, h, andThen_next, whenAt_of_ne ht]

theorem captureLoop_of_turn {s t : State} (h : captureRound s = .next t) (ht : t.state = Code.opoll) (k : Nat) :
    captureLoop (k + 1) s = captureLoop k t := by
  rw [captureLoop, h, andThen_next, whenAt_of_eq ht]

/-- At the count the loop ends in DONE (R117, R119). -/
theorem captureLoop_of_complete {s : State} (h : s.iter = s.cfg.nIter) (k : Nat) :
    captureLoop (k + 1) s = .next s.enterDone := by
  refine captureLoop_of_round ?_ (show Code.done ≠ Code.opoll by decide) k
  rw [captureRound, execOpoll_of_complete h, andThen_next, whenAt_of_ne (show Code.done ≠ Code.ipoll by decide)]

/-- Before the count and with `RUN = 0` the loop ends in CANCELLED, with no transfer made (R117, R120). -/
theorem captureLoop_of_not_run {s : State} (h : s.iter ≠ s.cfg.nIter) (hr : s.run = false) (k : Nat) :
    captureLoop (k + 1) s = .next s.enterCancelled := by
  refine captureLoop_of_round ?_ (show Code.cancelled ≠ Code.opoll by decide) k
  rw [captureRound, execOpoll_of_not_run h hr, andThen_next, whenAt_of_ne (show Code.cancelled ≠ Code.ipoll by decide)]

/-- Otherwise the turn is SYNC, and PROCESS on the packet it delivers (R112). -/
theorem captureRound_of_sync {s t : State} (h : s.iter ≠ s.cfg.nIter) (hr : s.run = true)
    (hsync : execSync (s.goto Code.ipoll) = .next t) : captureRound s = whenAt Code.seqx execProcess t := by
  rw [captureRound, execOpoll_of_run h hr, andThen_next, whenAt_of_eq (State.goto_state _ _), hsync, andThen_next]

/-! ### The outcomes of a capture -/

/-- The ways the outer loop entered at `s` can end, or be left in for ever, at `t` (R87, R91, R112). -/
def CaptureEnds (s t : State) : Prop :=
  (t.state = Code.done ∧ t.iter = s.cfg.nIter ∧ t.cs = false ∧ t.err = s.err) ∨
  (t.state = Code.cancelled ∧ s.run = false ∧ t.cs = false ∧ t.err = s.err) ∨
  (t.state = Code.fault ∧ (t.err = 1#3 ∨ t.err = 2#3 ∨ t.err = 3#3) ∧ t.cs = false) ∨
  (t.state = Code.xfer ∧ t.answers = []) ∨
  (t.state = Code.ipoll ∧ t.run = true ∧ t.EndlessDiscards)

/-- The outcomes depend on the entry state only through what a turn keeps. -/
theorem CaptureEnds.of_turn {s t u : State} (h : CaptureEnds u t) (hcfg : u.cfg = s.cfg) (hrun : u.run = s.run)
    (herr : u.err = s.err) : CaptureEnds s t := by
  rwa [CaptureEnds, hcfg, hrun, herr] at h

/-- A turn with `RUN = 1` before the count counts a packet, or it ends the capture. -/
theorem captureRound_cases {s : State} (hw : s.cfg.wf = true) (hb : s.BusAdmitted) (h : s.iter ≠ s.cfg.nIter)
    (hr : s.run = true) :
    ∃ t, captureRound s = .next t ∧ (CountsPacket s t ∨ t.state ≠ Code.opoll ∧ CaptureEnds s t) := by
  obtain ⟨u, hsync, -, houtcome, -, -, -, hiter, -, -, hrun, hcfg, -⟩ := syncOutcomes (s.goto Code.ipoll) hw hb
  have hround := captureRound_of_sync h hr hsync
  have ended (code : BitVec 5) (hu : u.state = code) (hc : code ≠ Code.seqx ∧ code ≠ Code.opoll) (he : CaptureEnds s u) :
      ∃ t, captureRound s = .next t ∧ (CountsPacket s t ∨ t.state ≠ Code.opoll ∧ CaptureEnds s t) :=
    ⟨u, hround.trans (whenAt_of_ne (hu ▸ hc.1)), .inr ⟨hu ▸ hc.2, he⟩⟩
  rcases houtcome hr with ⟨hu, -, herr, -⟩ | ⟨hu, herr, hcs⟩ | ⟨hu, hans, -⟩ | ⟨hu, -, hends, -⟩
  · obtain ⟨t, ht, hcases⟩ := execProcess_cases u
    refine ⟨t, hround.trans ((whenAt_of_eq hu).trans ht), hcases.imp (fun p => ?counted) fun e => ?faulted⟩
    case counted =>
      exact ⟨p.state, p.iter.trans (congrArg (· + 1) hiter), p.err.trans herr, p.run.trans hrun, p.cfg.trans hcfg⟩
    case faulted => exact ⟨by rw [e.state]; decide, .inr (.inr (.inl ⟨e.state, e.err, e.cs⟩))⟩
  · exact ended Code.fault hu (by decide) (.inr (.inr (.inl ⟨hu, .inl herr, hcs⟩)))
  · exact ended Code.xfer hu (by decide) (.inr (.inr (.inr (.inl ⟨hu, hans⟩))))
  · exact ended Code.ipoll hu (by decide) (.inr (.inr (.inr (.inr ⟨hu, hrun.trans hr, hends⟩))))

/-- From OPOLL with `k` packets still to count, `k` turns and the OPOLL after them reach one of the outcomes. -/
theorem captureLoop_ends {k : Nat} {s : State} (hw : s.cfg.wf = true) (hb : s.BusAdmitted) (hs : s.state = Code.opoll)
    (hk : s.iter + k = s.cfg.nIter) : ∃ t, captureLoop (k + 1) s = .next t ∧ CaptureEnds s t := by
  induction k generalizing s with
  | zero => exact ⟨_, captureLoop_of_complete hk 0, .inl ⟨rfl, hk, rfl, rfl⟩⟩
  | succ k ih =>
    have hne : s.iter ≠ s.cfg.nIter := by omega
    rcases Bool.eq_false_or_eq_true s.run with hr | hr
    case inr => exact ⟨_, captureLoop_of_not_run hne hr _, .inr (.inl ⟨rfl, hr, rfl, rfl⟩)⟩
    obtain ⟨u, hround, counted | ⟨hu, he⟩⟩ := captureRound_cases hw hb hne hr
    · have admitted : u.BusAdmitted :=
        moves_keep (fun _ _ _ h => State.BusAdmitted.move h) hw hb (moves_of_captureRound hs hround)
      obtain ⟨t, ht, he⟩ := ih (counted.cfg ▸ hw) admitted counted.state (by rw [counted.iter, counted.cfg]; omega)
      exact ⟨t, (captureLoop_of_turn hround counted.state _).trans ht, he.of_turn counted.cfg counted.run counted.err⟩
    · exact ⟨u, captureLoop_of_round hround hu _, he⟩

/-- Where CAPTURE starts, it is the outer loop entered by START; where neither command is accepted, none starts (R112, R126). -/
theorem execCapture_of_waiting {s : State} (h : s.state = Code.idle ∨ s.state = Code.selected) :
    ∃ line, execCapture s = captureLoop (s.cfg.nIter + 1) (s.started line) :=
  h.elim (fun h => ⟨true, execCapture_of_idle h⟩) fun h => ⟨s.cs, execCapture_of_selected h⟩

theorem execCapture_of_ne {s : State} (hidle : s.state ≠ Code.idle) (hselected : s.state ≠ Code.selected) :
    execCapture s = .next s :=
  if_neg fun h => h.elim hidle hselected

/-- Settles O39: the outer loop has `N_ITER` packets to count, and with `RUN = 0` its first OPOLL cancels. -/
theorem captureOutcomes : Obligations.CaptureOutcomes := by
  intro s hw hb
  refine ⟨fun hs => ?starts, execCapture_of_ne⟩
  case starts =>
    obtain ⟨line, hcapture⟩ := execCapture_of_waiting hs
    obtain ⟨t, ht, he⟩ := captureLoop_ends (s := s.started line) hw hb rfl (Nat.zero_add _)
    refine ⟨t, hcapture.trans ht, he.of_turn rfl rfl rfl, fun hr hn => ?_⟩
    have hne : (s.started line).iter ≠ (s.started line).cfg.nIter := hn.ne
    cases (captureLoop_of_not_run hne hr _).symm.trans ht
    exact ⟨rfl, rfl, rfl, rfl⟩

/-! ### Streams of accepted packets -/

/-- A part of a stream: some discard packets, and the packet after them (R93). -/
abbrev PacketGroup := List (List Byte) × List Byte

/-- The frame after the payloads of some groups' packets were stored, one after the other (R107). -/
def storeRows (c : Config) (m : Memory 16) (groups : List PacketGroup) : Memory 16 :=
  groups.foldl (fun m g =>
    m.writeFrom (cellAddress c (packetSeq c g.2).toNat 0) ((List.range c.cols).map (packetSample g.2))) m

/-- Cell `a` lies in the row that packet `p` addresses (R40, R106). -/
def InRowOf (c : Config) (p : List Byte) (a : Nat) : Prop :=
  (packetSeq c p).toNat * c.cols ≤ a ∧ a < (packetSeq c p).toNat * c.cols + c.cols

/-- Rows do not overlap: a cell lies in one row only (R110). -/
theorem packetSeq_eq_of_inRowOf {c : Config} {p q : List Byte} {a : Nat} (hp : InRowOf c p a) (hq : InRowOf c q a) :
    packetSeq c p = packetSeq c q := by
  have row {p : List Byte} (h : InRowOf c p a) : a / c.cols = (packetSeq c p).toNat :=
    Nat.div_eq_of_lt_le h.1 (by rw [Nat.succ_mul]; exact h.2)
  exact BitVec.eq_of_toNat_eq ((row hp).symm.trans (row hq))

section StoreRows

variable {c : Config} {m : Memory 16} {a : Nat}

/-- A cell of no row addressed reads as before. -/
theorem read_storeRows_of_outside {groups : List PacketGroup}
    (h : ∀ g ∈ groups, ¬ InRowOf c g.2 a) : (storeRows c m groups).read a = m.read a := by
  induction groups generalizing m with
  | nil => rfl
  | cons g groups ih =>
    obtain ⟨hg, hrest⟩ := List.forall_mem_cons.1 h
    exact (ih hrest).trans (read_outside_storedRow hg)

/-- The last packet that addresses a row leaves its payload there (R109, R130). -/
theorem read_storeRows_of_last {pre post : List PacketGroup} {g : PacketGroup}
    (h : ∀ g' ∈ post, packetSeq c g'.2 ≠ packetSeq c g.2) {k : Nat} (hk : k < c.cols) :
    (storeRows c m (pre ++ g :: post)).read ((packetSeq c g.2).toNat * c.cols + k) = some (packetSample g.2 k) := by
  have own : InRowOf c g.2 ((packetSeq c g.2).toNat * c.cols + k) := ⟨Nat.le_add_right _ _, by omega⟩
  have later : ∀ g' ∈ post, ¬ InRowOf c g'.2 ((packetSeq c g.2).toNat * c.cols + k) := fun g' hg' hin =>
    h g' hg' (packetSeq_eq_of_inRowOf hin own)
  rw [storeRows, List.foldl_append, List.foldl_cons]
  exact (read_storeRows_of_outside later).trans (read_storedRow hk)

end StoreRows

/-- The outer loop has accepted the packets of some groups: control is in OPOLL again, and nothing but the datapath, the
bookkeeping, the stream, the count and the rows addressed has changed (R129, R130). -/
structure Accepts (s : State) (groups : List PacketGroup) (t : State) : Prop where
  state : t.state = Code.opoll
  iter : t.iter = s.iter + groups.length
  pos : t.pos = s.pos + (groups.map fun g => g.1.length + 1).sum
  frame : t.frame = storeRows s.cfg s.frame groups
  err : t.err = s.err
  run : t.run = s.run
  cfg : t.cfg = s.cfg
  table : t.table = s.table

theorem Accepts.cons {s t u : State} {g : PacketGroup} {groups : List PacketGroup}
    (h : Accepts s [g] t) (h' : Accepts t groups u) : Accepts s (g :: groups) u where
  state := h'.state
  iter := by
    rw [h'.iter, h.iter]
    simp only [List.length_cons, List.length_nil]
    omega
  pos := by
    rw [h'.pos, h.pos]
    simp only [List.map_cons, List.map_nil, List.sum_cons, List.sum_nil]
    omega
  frame := by rw [h'.frame, h.frame, h.cfg]; rfl
  err := h'.err.trans h.err
  run := h'.run.trans h.run
  cfg := h'.cfg.trans h.cfg
  table := h'.table.trans h.table

/-- A turn on some discards and an accepted packet drops the ones and stores the other (R93, R129). -/
theorem captureRound_accepts {s : State} {g : PacketGroup} {rest : List Answer} (hw : s.cfg.wf = true)
    (ht : s.table = crcTable) (hr : s.run = true) (hn : s.iter ≠ s.cfg.nIter)
    (hb : s.bus = discardAnswers g.1 ++ .ok g.2 :: rest) (hd : ∀ d ∈ g.1, DiscardPacket s.cfg d)
    (hp : AcceptedPacket s.cfg g.2) : ∃ t, captureRound s = .next t ∧ Accepts s [g] t ∧ t.bus = rest := by
  obtain ⟨u, hsync, hstate, hholds, hpos, -, -, -, hu⟩ :=
    syncSkipsExactlyTheDiscards (s.goto Code.ipoll) g.1 g.2 rest hw hr hb hd hp.1
  have hcfg : u.cfg = s.cfg := by rw [hu]; rfl
  have htable : u.table = s.table := by rw [hu]; rfl
  have hprocess := execProcess_of_accepted (hcfg ▸ hw) (htable.trans ht) hholds (hcfg ▸ hp)
  refine ⟨_, (captureRound_of_sync hn hr hsync).trans ((whenAt_of_eq hstate).trans hprocess), ?_, by rw [hu]⟩
  exact ⟨rfl, by rw [hu]; rfl, hpos, by rw [hu]; rfl, by rw [hu]; rfl, by rw [hu]; rfl, hcfg, htable⟩

/-- As many turns as there are groups accept their packets, one each (R129). -/
theorem captureLoop_accepts {groups : List PacketGroup} {s : State} {rest : List Answer}
    (hw : s.cfg.wf = true) (ht : s.table = crcTable) (hr : s.run = true) (hs : s.state = Code.opoll)
    (hn : s.iter + groups.length ≤ s.cfg.nIter) (hb : s.bus = streamOf groups ++ rest)
    (hg : ∀ g ∈ groups, (∀ d ∈ g.1, DiscardPacket s.cfg d) ∧ AcceptedPacket s.cfg g.2) :
    ∃ t, Accepts s groups t ∧ t.bus = rest ∧ ∀ k, captureLoop (groups.length + k) s = captureLoop k t := by
  induction groups generalizing s with
  | nil => exact ⟨s, ⟨hs, rfl, rfl, rfl, rfl, rfl, rfl, rfl⟩, hb, fun k => by rw [List.length_nil, Nat.zero_add]⟩
  | cons g groups ih =>
    obtain ⟨⟨hd, hp⟩, hg⟩ := List.forall_mem_cons.1 hg
    rw [List.length_cons] at hn
    have hb : s.bus = discardAnswers g.1 ++ .ok g.2 :: (streamOf groups ++ rest) := by
      rw [hb, streamOf, List.flatMap_cons, List.append_assoc, List.append_assoc]
      rfl
    obtain ⟨u, hround, first, hrest⟩ := captureRound_accepts hw ht hr (by omega) hb hd hp
    obtain ⟨t, others, hbus, hloop⟩ := ih (first.cfg ▸ hw) (first.table.trans ht) (first.run.trans hr) first.state
      (by rw [first.iter, first.cfg, List.length_singleton]; omega) hrest (first.cfg ▸ hg)
    refine ⟨t, first.cons others, hbus, fun k => ?_⟩
    rw [List.length_cons, Nat.add_right_comm, captureLoop_of_turn hround first.state, hloop]

/-- Settles O40: after a turn for every group the count is reached, and the frame is what the payloads in their order leave. -/
theorem captureOfAcceptedStreamEndsInDone : Obligations.CaptureOfAcceptedStreamEndsInDone := by
  intro s groups rest hw ht hr hs hb hn hg
  obtain ⟨line, hcapture⟩ := execCapture_of_waiting hs
  obtain ⟨u, accepted, hbus, hloop⟩ := captureLoop_accepts (s := s.started line) hw ht hr rfl
    ((Nat.zero_add _).trans hn).le hb hg
  have hiter : u.iter = u.cfg.nIter := by
    rw [accepted.iter, accepted.cfg]
    exact (Nat.zero_add _).trans hn
  have hdone : execCapture s = .next u.enterDone := by
    rw [hcapture, ← hn, hloop, captureLoop_of_complete hiter]
  have hframe : u.frame = storeRows s.cfg s.frame groups := accepted.frame
  refine ⟨_, hdone, rfl, rfl, hiter.trans (congrArg Config.nIter accepted.cfg), rfl, accepted.err, accepted.run.trans hr, hbus,
    accepted.cfg, accepted.table, accepted.pos, ?last, ?others⟩
  case last =>
    rintro pre post g rfl hlast c hc
    rw [State.enterDone_frame, hframe]
    exact read_storeRows_of_last hlast hc
  case others =>
    intro a ha
    rw [State.enterDone_frame, hframe]
    exact read_storeRows_of_outside ha

end Sys2Proof.Machine
end

section
/-! PROOFS. Exceptions: the error record against the datapath at every step, and what a cancellation writes. -/

namespace Sys2Proof.Machine

/-! ### The error record -/

namespace FaultInv

variable {s t : State}

/-- Outside FAULT no error class is recorded, so the invariant speaks there of SEQCHK only. -/
theorem of_ne_fault (code : BitVec 5) (ht : t.state = code) (hc : code ≠ Code.fault) (hw : t.cfg.engineAlone = false)
    (herr : t.err = 0#3) (hm : code = Code.seqchk → t.rxcrc = t.crc) : FaultInv t where
  wholeBlock := hw
  errOnlyInFault := iff_of_true herr (ht ▸ hc)
  matchedBeforeRange := ht ▸ hm
  checksumRecord h2 := absurd (herr.symm.trans h2) (by decide)
  seqRangeRecord h3 := absurd (herr.symm.trans h3) (by decide)

/-- A control transfer between codes other than FAULT; whether it enters SEQCHK decides what remains to be said. -/
theorem of_goto (h : FaultInv s) {code : BitVec 5} (code' : BitVec 5) (hs : s.state = code) (ht : t.state = code')
    (hc : code ≠ Code.fault ∧ code' ≠ Code.fault) (hcfg : t.cfg = s.cfg) (herr : t.err = s.err)
    (hm : code' = Code.seqchk → t.rxcrc = t.crc) : FaultInv t :=
  of_ne_fault code' ht hc.2 (hcfg ▸ h.wholeBlock) (herr.trans (h.errOnlyInFault.2 (hs ▸ hc.1))) hm

/-- The invariant speaks of the configuration, the control, the error record and the datapath only. -/
theorem of_eq (h : FaultInv s) (hcfg : t.cfg = s.cfg) (hstate : t.state = s.state) (herr : t.err = s.err)
    (hinfo : t.errinfo = s.errinfo) (hrxcrc : t.rxcrc = s.rxcrc) (hcrc : t.crc = s.crc) (hseq : t.seq = s.seq) :
    FaultInv t := by
  obtain ⟨h1, h2, h3, h4, h5⟩ := h
  constructor <;> simpa only [hcfg, hstate, herr, hinfo, hrxcrc, hcrc, hseq]

/-- A fault entry that records the two checksums and the sequence number, with the cause that its class stands for (R132). -/
theorem raiseFault_pack (hw : s.cfg.engineAlone = false) {code : BitVec 3} (hc : code ≠ 0#3)
    (h2 : code = 2#3 → s.rxcrc ≠ s.crc) (h3 : code = 3#3 → s.rxcrc = s.crc ∧ s.cfg.rows ≤ s.seq.toNat) :
    FaultInv (s.raiseFault code (packErrinfo s.rxcrc s.crc s.seq)) where
  wholeBlock := hw
  errOnlyInFault := iff_of_false hc (not_not.2 rfl)
  matchedBeforeRange e := absurd e (show Code.fault ≠ Code.seqchk by decide)
  checksumRecord e := ⟨errExpected_pack .., errComputed_pack .., errSeq_pack .., h2 e⟩
  seqRangeRecord e := ⟨errExpected_pack .., errComputed_pack .., errSeq_pack .., h3 e⟩

/-- A failed transfer records neither checksum nor sequence number, and its class promises none. -/
theorem raiseTransport (hw : s.cfg.engineAlone = false) (c : TransportCode) : FaultInv (s.raiseTransport c) where
  wholeBlock := hw
  errOnlyInFault := iff_of_false (show (1#3 : BitVec 3) ≠ 0#3 by decide) (not_not.2 rfl)
  matchedBeforeRange e := absurd e (show Code.fault ≠ Code.seqchk by decide)
  checksumRecord e := absurd e (show (1#3 : BitVec 3) ≠ 2#3 by decide)
  seqRangeRecord e := absurd e (show (1#3 : BitVec 3) ≠ 3#3 by decide)

/-- Every move keeps the invariant: SEQCHK is entered with equal checksums only, and the two faults of the validator record
the datapath that caused them. -/
theorem move (h : FaultInv s) (m : Move s t) : FaultInv t := by
  cases m with
  | rest _ => exact h
  | complete hs _ => exact h.of_goto Code.done hs rfl (by decide) rfl rfl nofun
  | cancelled hs _ =>
    rcases hs with ⟨hs, -⟩ | hs <;> exact h.of_goto Code.cancelled hs rfl (by decide) rfl rfl nofun
  | turn hs _ _ => exact h.of_goto Code.ipoll hs rfl (by decide) rfl rfl nofun
  | request hs _ => exact h.of_goto Code.xfer hs rfl (by decide) rfl rfl nofun
  | receive hs _ _ => exact h.of_goto Code.classify hs rfl (by decide) rfl rfl nofun
  | @transportFault c rest _ _ => exact raiseTransport (s := { s with bus := rest }) h.wholeBlock c
  | classify hs =>
    cases s.isDiscard with
    | true => exact h.of_goto Code.ipoll hs rfl (by decide) rfl rfl nofun
    | false => exact h.of_goto Code.seqx hs rfl (by decide) rfl rfl nofun
  | seqx hs => exact h.of_goto Code.crcx hs rfl (by decide) rfl rfl nofun
  | crcx hs => exact h.of_goto Code.canon hs rfl (by decide) rfl rfl nofun
  | canon hs => exact h.of_goto Code.crcrun hs rfl (by decide) rfl rfl nofun
  | crcrun hs => exact h.of_goto Code.compare hs rfl (by decide) rfl rfl nofun
  | crcMatches hs heq => exact h.of_goto Code.seqchk hs rfl (by decide) rfl rfl fun _ => heq
  | checksumFault _ hne => exact raiseFault_pack h.wholeBlock (by decide) (fun _ => hne) nofun
  | seqInRange hs _ => exact h.of_goto Code.store hs rfl (by decide) rfl rfl nofun
  | seqRangeFault hs hr =>
    exact raiseFault_pack h.wholeBlock (by decide) nofun fun _ => ⟨h.matchedBeforeRange hs, not_lt.1 hr⟩
  | store hs _ => exact h.of_goto Code.next hs rfl (by decide) rfl rfl nofun
  | next hs => exact h.of_goto Code.opoll hs rfl (by decide) rfl rfl nofun

/-- Every input keeps the invariant; those of the engine, which could write `CRC`, do not reach the whole block (R33). -/
theorem input (h : FaultInv s) {w : InstrWord} (i : Input w s t) : FaultInv t := by
  cases i with
  | ignored _ _ => exact h
  | select _ hs => exact h.of_goto Code.selected hs rfl (by decide) rfl rfl nofun
  | start _ hs => exact h.of_goto Code.opoll hs rfl (by decide) rfl rfl nofun
  | cancel _ => exact h.of_eq rfl rfl rfl rfl rfl rfl rfl
  | reset _ => exact of_ne_fault Code.idle rfl (by decide) h.wholeBlock rfl nofun
  | read _ _ _ _ => exact h.of_eq rfl rfl rfl rfl rfl rfl rfl
  | engine _ _ _ _ ha => exact absurd ha (by simp [h.wholeBlock])

end FaultInv

/-- Settles O52: the moves of the sequencer and the inputs each keep the invariant, and a packet taken whole is a run of
moves. -/
theorem stepKeepsFaultRecordInvariant : Obligations.StepKeepsFaultRecordInvariant := fun _ _ h =>
  step_keeps (fun _ _ h => h.of_eq rfl rfl rfl rfl rfl rfl rfl) (fun _ _ _ h => h.move) (fun _ _ _ _ h => h.input) h

/-! ### Cancellation -/

/-- A cancellation delivered again finds `RUN` clear and changes nothing (R137). -/
theorem execCancel_idempotent (s : State) : andThen (execCancel s) execCancel = execCancel s := rfl

/-- Settles O45. -/
theorem cancelOnlyClearsRun : Obligations.CancelOnlyClearsRun :=
  ⟨fun _ => rfl, fun s => ⟨rfl, execCancel_idempotent s⟩⟩

end Sys2Proof.Machine
end
